-- ==== Sys2Proof/Word.lean ====
section
/-! DEFINITION. The word types of the CHDC (spec/00_scope.md R8, R9; spec/30_encoding.md R54, R58). -/

namespace Sys2Proof

/-- A word: 32 bits, unsigned (R9). Addition of words wraps modulo 2^32 (R10); it is `BitVec`'s own. -/
abbrev Word := BitVec 32

/-- A byte: 8 bits, unsigned (R9). -/
abbrev Byte := BitVec 8

/-- A host transaction word TW = {WE, SLOT[3:0], DATA[31:0]} (R54). -/
abbrev Tw := BitVec 37

/-- An engine control word ECW = {ENG[1:0], ALG, STEP[6:0]} (R58). -/
abbrev Ecw := BitVec 10

/-- A register slot number, 0..15 (R37). -/
abbrev Slot := BitVec 4

end Sys2Proof
end

