-- ==== Sys2Proof/Config.lean ====
section
/-! DEFINITION. The parameters of spec/00_scope.md R8 and the values the model names where the spec leaves one unspecified. -/

namespace Sys2Proof.Config

/-- Bytes in a block and in BUF: 64 (R8, R22). -/
abbrev blockBytes : Nat := 64

/-- Steps of an MD5 block (R8). -/
abbrev md5Steps : Nat := 64

/-- Steps of a SHA-1 block (R8). -/
abbrev sha1Steps : Nat := 80

/-- What WK[0..4] and MW[0..15] hold after reset. The spec: "unspecified (any value; never observable)" (R156, U1, U3).
DESIGN CHOICE, logs 1 and 2; unsafe if observable. -/
abbrev unspecifiedWord : Word := 0

/-- What a byte of BUF that nothing has written reads as. The spec: "unspecified (any value; never observable)"
(R156, U4). DESIGN CHOICE, log 3; unsafe if observable. -/
abbrev unwrittenByte : Byte := 0

end Sys2Proof.Config
end

