-- ==== Sys2Proof/Machine/State.lean ====
section
/-! DEFINITION. The state of the CHDC as plain data (spec/10_state.md), the reasons a step can stop, and the state after
reset (spec/70_reset_and_hazards.md R156). -/

namespace Sys2Proof.Machine

/-- Why the machine stops. None of them can happen from reset: each marks a broken invariant of the model or an
operation asked for where the spec does not trigger it. A host error is no fault: it is recorded in ERRCODE (R138). -/
inductive Fault where
  /-- Raised by every operation met with ENG = 3, which is never used (R61, U5). Safe. -/
  | engReserved
  /-- Raised by every operation met with PHASE = 3, which is never used (R61, U5). Safe. -/
  | phaseReserved
  /-- Raised by every operation met with STEP out of range while ENG = RUN (R61, U5). Safe. -/
  | stepOutOfRange
  /-- Raised by every operation met with FSEQ = 1 while ENG = IDLE (R21, U5). Safe. -/
  | fseqWhileIdle
  /-- Raised by every operation met with ERRCODE 4..15, which is never produced (R140, U6). Safe. -/
  | errcodeReserved
  /-- Raised by a write to BUF outside its offsets 0..63, which do not exist (R22, R36). Safe. -/
  | bufferOffset
  /-- Raised by an engine operation or a micro-operation asked for in a state that does not trigger it (R58, R117).
  Safe: the spec gives it no effect there. -/
  | notTriggered
  deriving DecidableEq, Repr

/-- Why a step has no meaning. -/
inductive Refusal where
  /-- Raised by exec for an instruction without a meaning; no arm is left so. Safe. -/
  | notModelled (mnemonic : String)
  deriving DecidableEq, Repr

/-- One entry of the schedule (R119, U13): who moves where the spec leaves it open, and where reset is asserted. -/
inductive Turn where
  /-- The engine moves, if it has a transition enabled. -/
  | engine
  /-- The host's next transaction is performed, if it may be: any read, or a write with ENG = IDLE (R116). -/
  | host
  /-- The platform asserts reset (R156); `keeps` says whether the bus still presents a write that was waiting (R158). -/
  | reset (keeps : Bool)
  deriving DecidableEq, Repr

/-- BUF as (offset, byte) pairs in one canonical form (`Memory.wf`). -/
abbrev Memory := List Host.Cell

/-- ENG = IDLE (R20). -/
abbrev engIdle : BitVec 2 := 0
/-- ENG = RUN (R20). -/
abbrev engRun : BitVec 2 := 1
/-- ENG = CHAIN (R20). -/
abbrev engChain : BitVec 2 := 2

/-- PHASE = IDLE (R26). -/
abbrev phaseIdle : BitVec 2 := 0
/-- PHASE = ABSORB (R26). -/
abbrev phaseAbsorb : BitVec 2 := 1
/-- PHASE = DONE (R26). -/
abbrev phaseDone : BitVec 2 := 2

/-- The state of the CHDC. The last three fields are the model's own: the inputs the host and the platform still have to
give, and the response on the bus (logs 4, 5, 7). -/
@[ext]
structure State where
  /-- The state bank HS[0..4] (R16). -/
  hs : Vector Word 5
  /-- The working registers WK[0..4] (R17). -/
  wk : Vector Word 5
  /-- The message word register MW[0..15] (R18). -/
  mw : Vector Word 16
  /-- The step counter STEP (R19). -/
  stepNo : BitVec 7
  /-- The engine sequencer state ENG (R20). -/
  eng : BitVec 2
  /-- The pending-length-block flag FSEQ (R21). -/
  fseq : Bool
  /-- The block buffer BUF[0..63] (R22). -/
  buf : Memory
  /-- The fill count FILL (R23). -/
  fill : BitVec 7
  /-- The message length counter L (R24). -/
  len : BitVec 64
  /-- The algorithm select ALG: 0 MD5, 1 SHA-1 (R25). -/
  alg : BitVec 1
  /-- The session phase PHASE (R26). -/
  phase : BitVec 2
  /-- The error flag ERR (R27). -/
  err : Bool
  /-- The error code ERRCODE (R27). -/
  errcode : BitVec 4
  /-- The transactions the host has still to have performed, in the order issued (R33, R49; log 4). -/
  hostq : List Tw
  /-- The turns still to come of the schedule (R119, U13; log 5). -/
  sched : List Turn
  /-- The response word of the last transaction performed, if it was a read (R54; log 7). -/
  resp : Option Word
  deriving DecidableEq, Repr

/-- The canonical form from a lower bound on: offsets rising from `lo`, each below 64, no entry equal to what an unlisted
offset reads as. -/
def Memory.wfFrom : Nat → Memory → Bool
  | _, [] => true
  | lo, (a, v) :: rest => lo ≤ a && a < Config.blockBytes && v ≠ Config.unwrittenByte && Memory.wfFrom (a + 1) rest

/-- BUF is in canonical form, so that equal contents are equal data. -/
def Memory.wf (m : Memory) : Bool := Memory.wfFrom 0 m

/-- The machine right after reset (R156, R157); WK, MW and BUF, which the spec leaves unspecified, at the values of logs
1, 2 and 3; no transaction issued and no turn scheduled. -/
def State.reset : State where
  hs := #v[0, 0, 0, 0, 0]
  wk := #v[Config.unspecifiedWord, Config.unspecifiedWord, Config.unspecifiedWord, Config.unspecifiedWord,
    Config.unspecifiedWord]
  mw := Vector.replicate 16 Config.unspecifiedWord
  stepNo := 0
  eng := engIdle
  fseq := false
  buf := []
  fill := 0
  len := 0
  alg := 0
  phase := phaseIdle
  err := false
  errcode := 0
  hostq := []
  sched := []
  resp := none

end Sys2Proof.Machine
end

