-- ==== Sys2Proof/Machine/Flags.lean ====
section
/-! DEFINITION. The status bits and the host's read-only views of the state (spec/10_state.md R28..R30, R34;
43_host_interface.md R129). No arithmetic flag exists (R10, R34). -/

namespace Sys2Proof.Machine

/-- STATUS.BUSY: 1 iff ENG is not IDLE (R28). -/
def State.busy (s : State) : Bool := s.eng ≠ engIdle

/-- STATUS.DONE: 1 iff PHASE = DONE and ENG = IDLE (R28). -/
def State.done (s : State) : Bool := s.phase = phaseDone && s.eng = engIdle

/-- The STATUS word {0^9, FILL[6:0], 0^2, PHASE[1:0], 0^3, ALG, ERRCODE[3:0], 0, ERR, DONE, BUSY} (R129). -/
def State.statusWord (s : State) : Word :=
  0#9 ++ s.fill ++ 0#2 ++ s.phase ++ 0#3 ++ s.alg ++ s.errcode ++ 0#1
    ++ BitVec.ofBool s.err ++ BitVec.ofBool s.done ++ BitVec.ofBool s.busy

/-- LEN_LO = L[31:0] (R29). -/
def State.lenLo (s : State) : Word := s.len.extractLsb' 0 32

/-- LEN_HI = L[63:32] (R29). -/
def State.lenHi (s : State) : Word := s.len.extractLsb' 32 32

/-- DIGESTn = HS[n] (R30). -/
def State.digestWord (s : State) (n : Fin 5) : Word := s.hs[n]

end Sys2Proof.Machine
end

