-- ==== Sys2Proof/Syntax.lean ====
section
/-! DEFINITION. The instructions: one constructor for each mnemonic of spec/opcode_table.json (log 12). -/

namespace Sys2Proof

/-- What the CHDC can be asked to do: host transactions (decoded from a TW), engine operations (decoded from an ECW;
their operand is the ECW's STEP field), and the operations that have no encoding of their own. The DATA field of a read
and of a bad write is "don't-care" (R54); it stays an operand so that no bit of the word is lost (log 13). -/
inductive Instr where
  -- commands: writes to CMD (43_host_interface.md R120..R125)
  | nop
  | initMd5
  | initSha1
  | finish
  | clearErr
  | cmdIllegal (v : Word)
  -- data writes and bad writes (R126..R128)
  | dataB (v : Word)
  | dataW (v : Word)
  | wrBad (slot : Slot) (v : Word)
  -- reads (R129..R132)
  | rdStatus (v : Word)
  | rdLenLo (v : Word)
  | rdLenHi (v : Word)
  | rdDigest0 (v : Word)
  | rdDigest1 (v : Word)
  | rdDigest2 (v : Word)
  | rdDigest3 (v : Word)
  | rdDigest4 (v : Word)
  | rdZero (slot : Slot) (v : Word)
  -- engine operations (41_md5.md R89..R92, R94; 42_sha1.md R107..R110, R112)
  | md5StepF (i : BitVec 7)
  | md5StepG (i : BitVec 7)
  | md5StepH (i : BitVec 7)
  | md5StepI (i : BitVec 7)
  | sha1StepCh (t : BitVec 7)
  | sha1StepPar1 (t : BitVec 7)
  | sha1StepMaj (t : BitVec 7)
  | sha1StepPar2 (t : BitVec 7)
  | sha1Sched (t : BitVec 7)
  | md5Chain (i : BitVec 7)
  | sha1Chain (t : BitVec 7)
  -- micro-operations, triggered, without an encoding (40_padding.md R70..R74, R79, R99)
  | padAppend (b : Byte)
  | dispatch
  | md5Load
  | sha1Load
  | padFinishOne
  | padFinishTwo
  | padLenblock
  deriving DecidableEq, Repr

end Sys2Proof
end

