-- ==== Sys2Proof/WellFormed.lean ====
section
/-! DEFINITION. Which instruction terms stand for something the spec describes: the operand ranges of 30_encoding.md. -/

namespace Sys2Proof

/-- The slots a write to which is WR_BAD (R57 item 4, R128). -/
def badWriteSlot (slot : Slot) : Bool := slot = 1 || 4 ≤ slot.toNat

/-- The slots a read of which is RD_ZERO (R57 item 7, R132). -/
def zeroReadSlot (slot : Slot) : Bool :=
  slot = 0 || slot = 2 || slot = 3 || slot = 6 || slot = 7 || 13 ≤ slot.toNat

/-- A command word is illegal iff DATA[31:4] is not 0 or DATA[3:0] is 5 or more (R55). -/
def illegalCommand (v : Word) : Bool := v.extractLsb' 4 28 ≠ 0 || 5 ≤ (v.extractLsb' 0 4).toNat

/-- The operands are ones the encoding gives the instruction: an illegal command word (R55), a slot that decodes to the
instruction (R57), a step index of the round or band (R58). -/
def Instr.wellFormed : Instr → Bool
  | .nop => true
  | .initMd5 => true
  | .initSha1 => true
  | .finish => true
  | .clearErr => true
  | .cmdIllegal v => illegalCommand v
  | .dataB _ => true
  | .dataW _ => true
  | .wrBad slot _ => badWriteSlot slot
  | .rdStatus _ => true
  | .rdLenLo _ => true
  | .rdLenHi _ => true
  | .rdDigest0 _ => true
  | .rdDigest1 _ => true
  | .rdDigest2 _ => true
  | .rdDigest3 _ => true
  | .rdDigest4 _ => true
  | .rdZero slot _ => zeroReadSlot slot
  | .md5StepF i => i.toNat < 16
  | .md5StepG i => 16 ≤ i.toNat && i.toNat < 32
  | .md5StepH i => 32 ≤ i.toNat && i.toNat < 48
  | .md5StepI i => 48 ≤ i.toNat && i.toNat < 64
  | .sha1StepCh t => t.toNat < 20
  | .sha1StepPar1 t => 20 ≤ t.toNat && t.toNat < 40
  | .sha1StepMaj t => 40 ≤ t.toNat && t.toNat < 60
  | .sha1StepPar2 t => 60 ≤ t.toNat && t.toNat < 80
  | .sha1Sched t => 16 ≤ t.toNat && t.toNat < 80
  | .md5Chain _ => true
  | .sha1Chain _ => true
  | .padAppend _ => true
  | .dispatch => true
  | .md5Load => true
  | .sha1Load => true
  | .padFinishOne => true
  | .padFinishTwo => true
  | .padLenblock => true

end Sys2Proof
end

