-- ==== Sys2Proof/Decode.lean ====
section
/-! DEFINITION. Decoding and encoding of the host transaction word TW and of the engine control word ECW
(30_encoding.md R54..R58), and the match/mask rows of spec/opcode_table.json for the host words. -/

namespace Sys2Proof

/-- The two encodings of the CHDC: a host transaction word and an engine control word (30_encoding.md). -/
inductive Code where
  | tw (w : Tw)
  | ecw (w : Ecw)
  deriving DecidableEq, Repr

/-- Why a word is no instruction. A transaction word always is one (R57). -/
inductive DecodeError where
  /-- ENG = IDLE: no engine transition is enabled (R117). -/
  | engineIdle
  /-- ENG = 3, which is never used (R20, R61). -/
  | engineReserved
  /-- ENG = RUN with STEP 64..127 (MD5) or 80..127 (SHA-1), which never occurs (R19, R61). -/
  | stepOutOfRange
  deriving DecidableEq, Repr

/-! ## Fields -/

/-- WE, bit 36 of a TW (R54): 1 a write, 0 a read. -/
def twWe (w : Tw) : BitVec 1 := w.extractLsb' 36 1

/-- SLOT, bits 35..32 of a TW (R54). -/
def twSlot (w : Tw) : Slot := w.extractLsb' 32 4

/-- DATA, bits 31..0 of a TW (R54). -/
def twData (w : Tw) : Word := w.extractLsb' 0 32

/-- {WE, SLOT, DATA} (R54). -/
def mkTw (we : BitVec 1) (slot : Slot) (data : Word) : Tw := we ++ slot ++ data

/-- OP, bits 3..0 of a command word (R55). -/
def commandOp (v : Word) : BitVec 4 := v.extractLsb' 0 4

/-- The reserved bits 31..4 of a command word (R55). -/
def commandReserved (v : Word) : BitVec 28 := v.extractLsb' 4 28

/-- ENG, bits 9..8 of an ECW (R58). -/
def ecwEng (w : Ecw) : BitVec 2 := w.extractLsb' 8 2

/-- ALG, bit 7 of an ECW (R58). -/
def ecwAlg (w : Ecw) : BitVec 1 := w.extractLsb' 7 1

/-- STEP, bits 6..0 of an ECW (R58). -/
def ecwStep (w : Ecw) : BitVec 7 := w.extractLsb' 0 7

/-- {ENG, ALG, STEP} (R58). -/
def mkEcw (eng : BitVec 2) (alg : BitVec 1) (step : BitVec 7) : Ecw := eng ++ alg ++ step

/-- ROUND of an MD5 step: STEP[5:4] (R58). -/
def md5Round (step : BitVec 7) : BitVec 2 := step.extractLsb' 4 2

/-- BAND(t) = t div 20, the ROUND of a SHA-1 step (R58). -/
def sha1Band (step : BitVec 7) : BitVec 2 := BitVec.ofNat 2 (step.toNat / 20)

/-- The 3-bit round-function selector FSEL = {ALG, ROUND} (R58). -/
def fselOf (alg : BitVec 1) (step : BitVec 7) : BitVec 3 :=
  alg ++ (if alg = 0 then md5Round step else sha1Band step)

/-- How many steps a block of the algorithm has: 64 or 80 (R19). -/
def stepsOf (alg : BitVec 1) : Nat := if alg = 0 then 64 else 80

/-! ## Decoding -/

/-- A write to CMD (R55, R57 item 1). -/
def decodeCommand (v : Word) : Instr :=
  if commandReserved v = 0 then
    if commandOp v = 0x0 then .nop
    else if commandOp v = 0x1 then .initMd5
    else if commandOp v = 0x2 then .initSha1
    else if commandOp v = 0x3 then .finish
    else if commandOp v = 0x4 then .clearErr
    else .cmdIllegal v
  else .cmdIllegal v

/-- A write (R57 items 1 to 4). -/
def decodeWrite (slot : Slot) (v : Word) : Instr :=
  if slot = 0 then decodeCommand v
  else if slot = 2 then .dataB v
  else if slot = 3 then .dataW v
  else .wrBad slot v

/-- A read (R57 items 5 to 7). -/
def decodeRead (slot : Slot) (v : Word) : Instr :=
  if slot = 1 then .rdStatus v
  else if slot = 4 then .rdLenLo v
  else if slot = 5 then .rdLenHi v
  else if slot = 8 then .rdDigest0 v
  else if slot = 9 then .rdDigest1 v
  else if slot = 10 then .rdDigest2 v
  else if slot = 11 then .rdDigest3 v
  else if slot = 12 then .rdDigest4 v
  else .rdZero slot v

/-- Decoding a transaction word (R57): total, every word is one instruction. -/
def decodeTw (w : Tw) : Instr :=
  if twWe w = 1 then decodeWrite (twSlot w) (twData w) else decodeRead (twSlot w) (twData w)

/-- The step operation that FSEL selects (the FSEL table of R58). -/
def stepOfFsel (fsel : BitVec 3) (step : BitVec 7) : Instr :=
  if fsel = 0b000 then .md5StepF step
  else if fsel = 0b001 then .md5StepG step
  else if fsel = 0b010 then .md5StepH step
  else if fsel = 0b011 then .md5StepI step
  else if fsel = 0b100 then .sha1StepCh step
  else if fsel = 0b101 then .sha1StepPar1 step
  else if fsel = 0b110 then .sha1StepMaj step
  else .sha1StepPar2 step

/-- Decoding an engine control word (R58, R117). The words of the SHA1_SCHED rows are those of the step whose
transition performs it, and decode to that step (R58; log 11). -/
def decodeEcw (w : Ecw) : Except DecodeError Instr :=
  if ecwEng w = 0 then .error .engineIdle
  else if ecwEng w = 1 then
    if (ecwStep w).toNat < stepsOf (ecwAlg w) then .ok (stepOfFsel (fselOf (ecwAlg w) (ecwStep w)) (ecwStep w))
    else .error .stepOutOfRange
  else if ecwEng w = 2 then
    if ecwAlg w = 0 then .ok (.md5Chain (ecwStep w)) else .ok (.sha1Chain (ecwStep w))
  else .error .engineReserved

/-- The decoder: total on every word of either encoding. -/
def decode : Code → Except DecodeError Instr
  | .tw w => .ok (decodeTw w)
  | .ecw w => decodeEcw w

/-! ## Encoding -/

/-- The word of an instruction, from the encodings of R55..R58; none for the micro-operations, which have no encoding
of their own (R58). SHA1_SCHED's word is that of the step it belongs to. -/
def encode : Instr → Option Code
  | .nop => some (.tw (mkTw 1 0 0))
  | .initMd5 => some (.tw (mkTw 1 0 1))
  | .initSha1 => some (.tw (mkTw 1 0 2))
  | .finish => some (.tw (mkTw 1 0 3))
  | .clearErr => some (.tw (mkTw 1 0 4))
  | .cmdIllegal v => some (.tw (mkTw 1 0 v))
  | .dataB v => some (.tw (mkTw 1 2 v))
  | .dataW v => some (.tw (mkTw 1 3 v))
  | .wrBad slot v => some (.tw (mkTw 1 slot v))
  | .rdStatus v => some (.tw (mkTw 0 1 v))
  | .rdLenLo v => some (.tw (mkTw 0 4 v))
  | .rdLenHi v => some (.tw (mkTw 0 5 v))
  | .rdDigest0 v => some (.tw (mkTw 0 8 v))
  | .rdDigest1 v => some (.tw (mkTw 0 9 v))
  | .rdDigest2 v => some (.tw (mkTw 0 10 v))
  | .rdDigest3 v => some (.tw (mkTw 0 11 v))
  | .rdDigest4 v => some (.tw (mkTw 0 12 v))
  | .rdZero slot v => some (.tw (mkTw 0 slot v))
  | .md5StepF i => some (.ecw (mkEcw 1 0 i))
  | .md5StepG i => some (.ecw (mkEcw 1 0 i))
  | .md5StepH i => some (.ecw (mkEcw 1 0 i))
  | .md5StepI i => some (.ecw (mkEcw 1 0 i))
  | .sha1StepCh t => some (.ecw (mkEcw 1 1 t))
  | .sha1StepPar1 t => some (.ecw (mkEcw 1 1 t))
  | .sha1StepMaj t => some (.ecw (mkEcw 1 1 t))
  | .sha1StepPar2 t => some (.ecw (mkEcw 1 1 t))
  | .sha1Sched t => some (.ecw (mkEcw 1 1 t))
  | .md5Chain i => some (.ecw (mkEcw 2 0 i))
  | .sha1Chain t => some (.ecw (mkEcw 2 1 t))
  | .padAppend _ => none
  | .dispatch => none
  | .md5Load => none
  | .sha1Load => none
  | .padFinishOne => none
  | .padFinishTwo => none
  | .padLenblock => none

/-- The instruction whose bits, numbered as spec/opcode_table.json numbers them, are w. A row of at most 16 bits is an
ECW of 10 bits; a longer one is a TW of 37 bits. A set bit above the word's own is no bit of any word: none (log 18). -/
def decodeTableWord (nbits w : Nat) : Option Instr :=
  if nbits ≤ 16 then
    if w < 2 ^ 10 then
      match decode (.ecw (BitVec.ofNat 10 w)) with
      | .ok i => some i
      | .error _ => none
    else none
  else
    if w < 2 ^ 37 then
      match decode (.tw (BitVec.ofNat 37 w)) with
      | .ok i => some i
      | .error _ => none
    else none

/-! ## Mnemonics and the rows of the opcode table -/

/-- The instruction's mnemonic, letter for letter as spec/opcode_table.json has it. -/
def mnemonic : Instr → String
  | .nop => "NOP"
  | .initMd5 => "INIT_MD5"
  | .initSha1 => "INIT_SHA1"
  | .finish => "FINISH"
  | .clearErr => "CLEAR_ERR"
  | .cmdIllegal _ => "CMD_ILLEGAL"
  | .dataB _ => "DATA_B"
  | .dataW _ => "DATA_W"
  | .wrBad _ _ => "WR_BAD"
  | .rdStatus _ => "RD_STATUS"
  | .rdLenLo _ => "RD_LEN_LO"
  | .rdLenHi _ => "RD_LEN_HI"
  | .rdDigest0 _ => "RD_DIGEST0"
  | .rdDigest1 _ => "RD_DIGEST1"
  | .rdDigest2 _ => "RD_DIGEST2"
  | .rdDigest3 _ => "RD_DIGEST3"
  | .rdDigest4 _ => "RD_DIGEST4"
  | .rdZero _ _ => "RD_ZERO"
  | .md5StepF _ => "MD5_STEP_F"
  | .md5StepG _ => "MD5_STEP_G"
  | .md5StepH _ => "MD5_STEP_H"
  | .md5StepI _ => "MD5_STEP_I"
  | .sha1StepCh _ => "SHA1_STEP_CH"
  | .sha1StepPar1 _ => "SHA1_STEP_PAR1"
  | .sha1StepMaj _ => "SHA1_STEP_MAJ"
  | .sha1StepPar2 _ => "SHA1_STEP_PAR2"
  | .sha1Sched _ => "SHA1_SCHED"
  | .md5Chain _ => "MD5_CHAIN"
  | .sha1Chain _ => "SHA1_CHAIN"
  | .padAppend _ => "PAD_APPEND"
  | .dispatch => "DISPATCH"
  | .md5Load => "MD5_LOAD"
  | .sha1Load => "SHA1_LOAD"
  | .padFinishOne => "PAD_FINISH_ONE"
  | .padFinishTwo => "PAD_FINISH_TWO"
  | .padLenblock => "PAD_LENBLOCK"

/-- One match/mask row of spec/opcode_table.json over words of n bits. -/
structure TableRow (n : Nat) where
  name : String
  pattern : BitVec n
  mask : BitVec n
  deriving DecidableEq, Repr

/-- The row's pattern agrees with the word on the bits of its mask. -/
def rowMatches {n : Nat} (w : BitVec n) (r : TableRow n) : Bool := w &&& r.mask = r.pattern

/-- The 28 CMD_ILLEGAL rows for DATA[31:4] not 0: the highest set bit of DATA is bit b, for b = 4..31. -/
def illegalReservedRows : List (TableRow 37) :=
  (List.range 28).map fun k =>
    ⟨"CMD_ILLEGAL", BitVec.ofNat 37 (2 ^ 36 + 2 ^ (k + 4)), BitVec.ofNat 37 (2 ^ 37 - 2 ^ (k + 4))⟩

/-- The TW37 rows of spec/opcode_table.json, in its order. -/
def hostRows : List (TableRow 37) :=
  [⟨"NOP", 0x1000000000, 0x1FFFFFFFFF⟩, ⟨"INIT_MD5", 0x1000000001, 0x1FFFFFFFFF⟩,
   ⟨"INIT_SHA1", 0x1000000002, 0x1FFFFFFFFF⟩, ⟨"FINISH", 0x1000000003, 0x1FFFFFFFFF⟩,
   ⟨"CLEAR_ERR", 0x1000000004, 0x1FFFFFFFFF⟩, ⟨"CMD_ILLEGAL", 0x1000000005, 0x1FFFFFFFFF⟩,
   ⟨"CMD_ILLEGAL", 0x1000000006, 0x1FFFFFFFFE⟩, ⟨"CMD_ILLEGAL", 0x1000000008, 0x1FFFFFFFF8⟩]
  ++ illegalReservedRows ++
  [⟨"DATA_B", 0x1200000000, 0x1F00000000⟩, ⟨"DATA_W", 0x1300000000, 0x1F00000000⟩,
   ⟨"WR_BAD", 0x1100000000, 0x1F00000000⟩, ⟨"WR_BAD", 0x1400000000, 0x1C00000000⟩,
   ⟨"WR_BAD", 0x1800000000, 0x1800000000⟩, ⟨"RD_STATUS", 0x0100000000, 0x1F00000000⟩,
   ⟨"RD_LEN_LO", 0x0400000000, 0x1F00000000⟩, ⟨"RD_LEN_HI", 0x0500000000, 0x1F00000000⟩,
   ⟨"RD_DIGEST0", 0x0800000000, 0x1F00000000⟩, ⟨"RD_DIGEST1", 0x0900000000, 0x1F00000000⟩,
   ⟨"RD_DIGEST2", 0x0A00000000, 0x1F00000000⟩, ⟨"RD_DIGEST3", 0x0B00000000, 0x1F00000000⟩,
   ⟨"RD_DIGEST4", 0x0C00000000, 0x1F00000000⟩, ⟨"RD_ZERO", 0x0000000000, 0x1F00000000⟩,
   ⟨"RD_ZERO", 0x0200000000, 0x1E00000000⟩, ⟨"RD_ZERO", 0x0600000000, 0x1E00000000⟩,
   ⟨"RD_ZERO", 0x0D00000000, 0x1F00000000⟩, ⟨"RD_ZERO", 0x0E00000000, 0x1E00000000⟩]

/-- The ECW10 rows of spec/opcode_table.json, in its order, but for the SHA1_SCHED rows (`schedRows`). -/
def engineRows : List (TableRow 10) :=
  [⟨"MD5_STEP_F", 0x100, 0x3F0⟩, ⟨"MD5_STEP_G", 0x110, 0x3F0⟩, ⟨"MD5_STEP_H", 0x120, 0x3F0⟩,
   ⟨"MD5_STEP_I", 0x130, 0x3F0⟩, ⟨"SHA1_STEP_CH", 0x180, 0x3F0⟩, ⟨"SHA1_STEP_CH", 0x190, 0x3FC⟩,
   ⟨"SHA1_STEP_PAR1", 0x194, 0x3FC⟩, ⟨"SHA1_STEP_PAR1", 0x198, 0x3F8⟩, ⟨"SHA1_STEP_PAR1", 0x1A0, 0x3F8⟩,
   ⟨"SHA1_STEP_MAJ", 0x1A8, 0x3F8⟩, ⟨"SHA1_STEP_MAJ", 0x1B0, 0x3F8⟩, ⟨"SHA1_STEP_MAJ", 0x1B8, 0x3FC⟩,
   ⟨"SHA1_STEP_PAR2", 0x1BC, 0x3FC⟩, ⟨"SHA1_STEP_PAR2", 0x1C0, 0x3F0⟩, ⟨"MD5_CHAIN", 0x200, 0x380⟩,
   ⟨"SHA1_CHAIN", 0x280, 0x380⟩]

/-- The SHA1_SCHED rows: the steps t >= 16, whose step transition also performs R101 (R58). -/
def schedRows : List (TableRow 10) :=
  [⟨"SHA1_SCHED", 0x190, 0x3F0⟩, ⟨"SHA1_SCHED", 0x1A0, 0x3E0⟩, ⟨"SHA1_SCHED", 0x1C0, 0x3F0⟩]

end Sys2Proof
end

