-- ==== Sys2Proof/Machine/Operands.lean ====
section
/-! DEFINITION. The datapath's functions of words and bytes: rotation and byte order (spec/00_scope.md R10..R13), the round
functions (R80..R83, R102..R104), the per-step operands (R59, R60, R84..R87, R105) and the initial values (R78, R98). -/

namespace Sys2Proof.Machine

/-! ## Words and bytes -/

/-- Rotation left by s mod 32 (R12). -/
def rotl32 (v : Word) (s : Nat) : Word := v <<< (s % 32) ||| v >>> (32 - s % 32)

/-- The little-endian read of four bytes (R13). -/
def le32 (b0 b1 b2 b3 : Byte) : Word := b3 ++ b2 ++ b1 ++ b0

/-- The big-endian read of four bytes (R13). -/
def be32 (b0 b1 b2 b3 : Byte) : Word := b0 ++ b1 ++ b2 ++ b3

/-- Byte j of a word: v[8j+7:8j] (R9, R127). -/
def wordByte (v : Word) (j : Nat) : Byte := v.extractLsb' (8 * j) 8

/-- The bytes of a word, least significant first (R13). -/
def le32bytes (v : Word) : List Byte := [wordByte v 0, wordByte v 1, wordByte v 2, wordByte v 3]

/-- The bytes of a word, most significant first (R13). -/
def be32bytes (v : Word) : List Byte := [wordByte v 3, wordByte v 2, wordByte v 1, wordByte v 0]

/-- The bytes of a 64-bit value, least significant first (R13). -/
def le64bytes (v : BitVec 64) : List Byte :=
  [v.extractLsb' 0 8, v.extractLsb' 8 8, v.extractLsb' 16 8, v.extractLsb' 24 8,
   v.extractLsb' 32 8, v.extractLsb' 40 8, v.extractLsb' 48 8, v.extractLsb' 56 8]

/-- The bytes of a 64-bit value, most significant first (R13). -/
def be64bytes (v : BitVec 64) : List Byte :=
  [v.extractLsb' 56 8, v.extractLsb' 48 8, v.extractLsb' 40 8, v.extractLsb' 32 8,
   v.extractLsb' 24 8, v.extractLsb' 16 8, v.extractLsb' 8 8, v.extractLsb' 0 8]

/-- The length field of the padding: little-endian for MD5, big-endian for SHA-1 (R40, R66). -/
def lengthBytes (alg : BitVec 1) (bitlen : BitVec 64) : List Byte :=
  if alg = 0 then le64bytes bitlen else be64bytes bitlen

/-! ## Round functions -/

/-- F of MD5 (R80). -/
def md5F (x y z : Word) : Word := (x &&& y) ||| (~~~x &&& z)

/-- G of MD5 (R81). -/
def md5G (x y z : Word) : Word := (x &&& z) ||| (y &&& ~~~z)

/-- H of MD5 (R82). -/
def md5H (x y z : Word) : Word := x ^^^ y ^^^ z

/-- I of MD5 (R83). -/
def md5I (x y z : Word) : Word := y ^^^ (x ||| ~~~z)

/-- Ch of SHA-1 (R102). -/
def sha1Ch (x y z : Word) : Word := (x &&& y) ||| (~~~x &&& z)

/-- Parity of SHA-1 (R103). -/
def sha1Parity (x y z : Word) : Word := x ^^^ y ^^^ z

/-- Maj of SHA-1 (R104). -/
def sha1Maj (x y z : Word) : Word := (x &&& y) ||| (x &&& z) ||| (y &&& z)

/-! ## Per-step operands of MD5 -/

/-- The message index k(i) (R84). -/
def md5Index (i : Nat) : Fin 16 :=
  if i < 16 then Fin.ofNat 16 i
  else if i < 32 then Fin.ofNat 16 (5 * i + 1)
  else if i < 48 then Fin.ofNat 16 (3 * i + 5)
  else Fin.ofNat 16 (7 * i)

/-- The rotation amount s(i) = S[i div 16][i mod 4] (R85). -/
def md5Shift (i : Nat) : Nat :=
  ([7, 12, 17, 22, 5, 9, 14, 20, 4, 11, 16, 23, 6, 10, 15, 21] : List Nat).getD (4 * (i / 16) + i % 4) 0

/-- T[0..15] (R87). -/
def md5TableF : List Word :=
  [0xD76AA478, 0xE8C7B756, 0x242070DB, 0xC1BDCEEE, 0xF57C0FAF, 0x4787C62A, 0xA8304613, 0xFD469501,
   0x698098D8, 0x8B44F7AF, 0xFFFF5BB1, 0x895CD7BE, 0x6B901122, 0xFD987193, 0xA679438E, 0x49B40821]

/-- T[16..31] (R87). -/
def md5TableG : List Word :=
  [0xF61E2562, 0xC040B340, 0x265E5A51, 0xE9B6C7AA, 0xD62F105D, 0x02441453, 0xD8A1E681, 0xE7D3FBC8,
   0x21E1CDE6, 0xC33707D6, 0xF4D50D87, 0x455A14ED, 0xA9E3E905, 0xFCEFA3F8, 0x676F02D9, 0x8D2A4C8A]

/-- T[32..47] (R87). -/
def md5TableH : List Word :=
  [0xFFFA3942, 0x8771F681, 0x6D9D6122, 0xFDE5380C, 0xA4BEEA44, 0x4BDECFA9, 0xF6BB4B60, 0xBEBFBC70,
   0x289B7EC6, 0xEAA127FA, 0xD4EF3085, 0x04881D05, 0xD9D4D039, 0xE6DB99E5, 0x1FA27CF8, 0xC4AC5665]

/-- T[48..63] (R87). -/
def md5TableI : List Word :=
  [0xF4292244, 0x432AFF97, 0xAB9423A7, 0xFC93A039, 0x655B59C3, 0x8F0CCC92, 0xFFEFF47D, 0x85845DD1,
   0x6FA87E4F, 0xFE2CE6E0, 0xA3014314, 0x4E0811A1, 0xF7537E82, 0xBD3AF235, 0x2AD7D2BB, 0xEB86D391]

/-- The additive constant T[i] (R86, R87). -/
def md5Constant (i : Nat) : Word := (md5TableF ++ md5TableG ++ md5TableH ++ md5TableI).getD i 0

/-! ## Per-step operands of SHA-1 -/

/-- K0 (R105). -/
abbrev sha1K0 : Word := 0x5A827999
/-- K1 (R105). -/
abbrev sha1K1 : Word := 0x6ED9EBA1
/-- K2 (R105). -/
abbrev sha1K2 : Word := 0x8F1BBCDC
/-- K3 (R105). -/
abbrev sha1K3 : Word := 0xCA62C1D6

/-! ## Initial values -/

/-- What INIT_MD5 writes to HS[0..4]: the MD5 initial value, and 0 in HS[4] (R78, R121). -/
def md5Initial : Vector Word 5 := #v[0x67452301, 0xEFCDAB89, 0x98BADCFE, 0x10325476, 0x00000000]

/-- What INIT_SHA1 writes to HS[0..4]: the SHA-1 initial value (R98, R122). -/
def sha1Initial : Vector Word 5 := #v[0x67452301, 0xEFCDAB89, 0x98BADCFE, 0x10325476, 0xC3D2E1F0]

end Sys2Proof.Machine
end

