-- ==== Sys2Proof/Machine/Ops.lean ====
section
/-! DEFINITION. The operations every meaning is made of: BUF (spec/20_memory.md R36), the error record
(60_exceptions.md R138..R146), acceptance of host transactions (43_host_interface.md R116), the states that must fault
(30_encoding.md R61), and the choice of the next transition (R117, R119, R156). -/

namespace Sys2Proof.Machine

/-- The outcome of a meaning. -/
abbrev Result := Host.Outcome State Fault Refusal

/-! ## BUF -/

/-- The byte at an offset of BUF; an unlisted offset reads as `Config.unwrittenByte` (log 3). -/
def Memory.read : Memory → Nat → Byte
  | [], _ => Config.unwrittenByte
  | (b, v) :: rest, a => if a = b then v else Memory.read rest a

/-- Every entry at an offset taken out. -/
def Memory.dropEntry (m : Memory) (a : Nat) : Memory := m.filter fun c => c.1 ≠ a

/-- An entry put in before the first one at a higher offset. -/
def Memory.putEntry : Memory → Nat → Byte → Memory
  | [], a, v => [(a, v)]
  | (b, w) :: rest, a, v => if a < b then (a, v) :: (b, w) :: rest else (b, w) :: Memory.putEntry rest a v

/-- One byte written, keeping the canonical form: the byte an unlisted offset reads as is not listed. -/
def Memory.write (m : Memory) (a : Nat) (v : Byte) : Memory :=
  if v = Config.unwrittenByte then m.dropEntry a else (m.dropEntry a).putEntry a v

/-- Bytes written at consecutive offsets, the first at `a`. -/
def Memory.writeBytes : Memory → Nat → List Byte → Memory
  | m, _, [] => m
  | m, a, v :: vs => Memory.writeBytes (m.write a v) (a + 1) vs

/-- MemWrite(BUF, a, n, m) (R14): an offset outside 0..63 does not exist (R36) and faults (log 10). -/
def State.memWrite (a : Nat) (bytes : List Byte) (s : State) : Except Fault State :=
  if a + bytes.length ≤ Config.blockBytes then .ok { s with buf := s.buf.writeBytes a bytes }
  else .error .bufferOffset

/-- The little-endian read of word j of BUF (R38). -/
def State.bufLe32 (s : State) (j : Nat) : Word :=
  le32 (s.buf.read (4 * j)) (s.buf.read (4 * j + 1)) (s.buf.read (4 * j + 2)) (s.buf.read (4 * j + 3))

/-- The big-endian read of word j of BUF (R39). -/
def State.bufBe32 (s : State) (j : Nat) : Word :=
  be32 (s.buf.read (4 * j)) (s.buf.read (4 * j + 1)) (s.buf.read (4 * j + 2)) (s.buf.read (4 * j + 3))

/-! ## The error record: the CHDC's one exception, and what undoes it -/

/-- ILLEGAL_CMD (R140, R141). -/
abbrev errIllegalCmd : BitVec 4 := 1
/-- NO_SESSION (R140, R142). -/
abbrev errNoSession : BitVec 4 := 2
/-- BAD_ACCESS (R140, R143). -/
abbrev errBadAccess : BitVec 4 := 3

/-- raise HostError(code) (R139): the first code since the last clear is kept, ERR becomes 1, nothing else changes (R138,
R145). -/
def State.raiseHostError (code : BitVec 4) (s : State) : State :=
  { s with errcode := if s.err then s.errcode else code, err := true }

/-- ERR <- 0; ERRCODE <- 0 (R124): the only operation beside reset that undoes an error (R146). -/
def State.clearHostError (s : State) : State := { s with err := false, errcode := 0 }

/-! ## States that must fault -/

/-- Which broken invariant of R61, U5 and U6 the state shows, if any: "A model that meets one has a broken invariant and
must fault, not compute" (log 8). -/
def State.broken (s : State) : Option Fault :=
  if s.eng = 3 then some .engReserved
  else if s.phase = 3 then some .phaseReserved
  else if s.eng = engRun && stepsOf s.alg ≤ s.stepNo.toNat then some .stepOutOfRange
  else if s.fseq && s.eng = engIdle then some .fseqWhileIdle
  else if 4 ≤ s.errcode.toNat then some .errcodeReserved
  else none

/-- Go on only from a state that shows no broken invariant (R61). -/
def State.checked (s : State) (k : State → Result) : Result :=
  match s.broken with
  | some f => .fault f
  | none => k s

/-- The outcome of an operation that may fault on BUF. -/
def ofExcept : Except Fault State → Result
  | .ok s => .next s
  | .error f => .fault f

/-! ## Host transactions -/

/-- A write that waits stays on the bus, before every later transaction; nothing is lost or reordered (R116; log 16). -/
def State.hold (tw : Tw) (s : State) : State := { s with hostq := tw :: s.hostq }

/-- A host write (R116): performed only when ENG = IDLE, returning nothing (R135); while ENG is not IDLE it waits. -/
def hostWrite (tw : Tw) (act : State → Except Fault State) (s : State) : Result :=
  s.checked fun s =>
    if s.eng = engIdle then ofExcept (act { s with resp := none }) else .next (s.hold tw)

/-- A host read (R116, R47): answered at once with one word; no state changes. -/
def hostRead (value : State → Word) (s : State) : Result :=
  s.checked fun s => .next { s with resp := some (value s) }

/-! ## Engine operations and micro-operations -/

/-- The engine control word {ENG, ALG, STEP} (R58). -/
def State.ecw (s : State) : Ecw := mkEcw s.eng s.alg s.stepNo

/-- FSEL of the state (R58). -/
def State.fsel (s : State) : BitVec 3 := fselOf s.alg s.stepNo

/-- An operation the spec triggers by a condition of the state; elsewhere the spec gives it no effect (log 9). -/
def whenTriggered (cond : State → Bool) (act : State → Except Fault State) (s : State) : Result :=
  s.checked fun s => if cond s then ofExcept (act s) else .fault .notTriggered

/-- The step operation of FSEL, at step index i: ENG = RUN, STEP = i, and FSEL selects it (R58, R88, R106). -/
def stepTriggered (fsel : BitVec 3) (i : BitVec 7) (s : State) : Bool :=
  s.eng = engRun && s.stepNo = i && s.fsel = fsel

/-- The chaining operation of an algorithm, met with STEP = i: ENG = CHAIN and ALG selects it (R58, R94, R112). -/
def chainTriggered (alg : BitVec 1) (i : BitVec 7) (s : State) : Bool :=
  s.eng = engChain && s.stepNo = i && s.alg = alg

/-! ## The choice of the next transition -/

/-- A transaction word that is a read: WE = 0 (R54). -/
def isRead (tw : Tw) : Bool := twWe tw = 0

/-- The host's next transaction, if it issues one, is a read. -/
def State.readPending (s : State) : Bool :=
  match s.hostq with
  | [] => false
  | tw :: _ => isRead tw

/-- Who moves next (R116, R117, R119). A reset on the schedule comes first (R156). While ENG = IDLE only the host can
move; while ENG is not IDLE a read is performed if it is the host's turn, and otherwise the engine moves: a write waits,
and past the schedule's end the engine moves (logs 5, 6). -/
def State.nextTurn (s : State) : Turn :=
  match s.sched with
  | .reset keeps :: _ => .reset keeps
  | .host :: _ => if s.eng = engIdle || s.readPending then .host else .engine
  | .engine :: _ => if s.eng = engIdle then .host else .engine
  | [] => if s.eng = engIdle then .host else .engine

/-- The schedule's turn is used up. -/
def State.takeTurn (s : State) : State := { s with sched := s.sched.tail }

/-- The host's next transaction leaves the list, with its turn. -/
def State.takeTransaction (s : State) : State := { s with hostq := s.hostq.tail, sched := s.sched.tail }

/-- What is on the bus after a reset (R158): a write that was waiting is presented again, or not, as the platform chooses;
what the host has not issued yet still comes. -/
def State.busAfterReset (keeps : Bool) (s : State) : List Tw :=
  if keeps || s.eng = engIdle || s.readPending then s.hostq else s.hostq.tail

/-- The reset transition (R156, R158): every piece of the core's state at its reset value, whatever was in flight. -/
def State.takeReset (keeps : Bool) (s : State) : State :=
  { State.reset with hostq := s.busAfterReset keeps, sched := s.sched.tail }

end Sys2Proof.Machine
end

