-- ==== Sys2Proof/Machine/Md5.lean ====
section
/-! DEFINITION. The MD5 compression engine's load and steps (spec/41_md5.md R79, R88..R93). -/

namespace Sys2Proof.Machine

/-- MD5_LOAD (R79): the block latched as little-endian words, WK[0..3] from HS[0..3], WK[4] not written, STEP <- 0. -/
def State.loadMd5 (s : State) : State :=
  { s with
    mw := #v[s.bufLe32 0, s.bufLe32 1, s.bufLe32 2, s.bufLe32 3, s.bufLe32 4, s.bufLe32 5, s.bufLe32 6, s.bufLe32 7,
      s.bufLe32 8, s.bufLe32 9, s.bufLe32 10, s.bufLe32 11, s.bufLe32 12, s.bufLe32 13, s.bufLe32 14, s.bufLe32 15]
    wk := #v[s.hs[0], s.hs[1], s.hs[2], s.hs[3], s.wk[4]]
    stepNo := 0 }

/-- The new value of one MD5 step (R88): b + rotl32(a + FUN(b, c, d) + MW[k(i)] + T[i], s(i)). -/
def md5StepValue (fn : Word → Word → Word → Word) (i : Nat) (mw : Vector Word 16) (a b c d : Word) : Word :=
  b + rotl32 (a + fn b c d + mw[md5Index i] + md5Constant i) (md5Shift i)

/-- STEP <- STEP + 1; if STEP is the block's number of steps: ENG <- CHAIN (R93, R111). -/
def State.advanceStep (last : Nat) (s : State) : State :=
  { s with stepNo := s.stepNo + 1, eng := if (s.stepNo + 1).toNat = last then engChain else s.eng }

/-- The common MD5 step (R88), then R93. -/
def State.md5Step (fn : Word → Word → Word → Word) (s : State) : State :=
  ({ s with
    wk := #v[s.wk[3], md5StepValue fn s.stepNo.toNat s.mw s.wk[0] s.wk[1] s.wk[2] s.wk[3], s.wk[1], s.wk[2],
      s.wk[4]] } : State).advanceStep Config.md5Steps

/-- MD5_STEP_F (R89). -/
def execMd5StepF (i : BitVec 7) (s : State) : Result :=
  whenTriggered (stepTriggered 0b000 i) (fun s => .ok (s.md5Step md5F)) s

/-- MD5_STEP_G (R90). -/
def execMd5StepG (i : BitVec 7) (s : State) : Result :=
  whenTriggered (stepTriggered 0b001 i) (fun s => .ok (s.md5Step md5G)) s

/-- MD5_STEP_H (R91). -/
def execMd5StepH (i : BitVec 7) (s : State) : Result :=
  whenTriggered (stepTriggered 0b010 i) (fun s => .ok (s.md5Step md5H)) s

/-- MD5_STEP_I (R92). -/
def execMd5StepI (i : BitVec 7) (s : State) : Result :=
  whenTriggered (stepTriggered 0b011 i) (fun s => .ok (s.md5Step md5I)) s

/-- MD5_LOAD as an operation of its own (R79): triggered by DISPATCH with ALG = 0. -/
def execMd5Load (s : State) : Result :=
  whenTriggered (fun s => s.alg = 0 && s.eng ≠ engRun) (fun s => .ok s.loadMd5) s

end Sys2Proof.Machine
end

