-- ==== Sys2Proof/Machine/Sha1.lean ====
section
/-! DEFINITION. The SHA-1 compression engine's load, schedule and steps (spec/42_sha1.md R99, R101, R106..R111). -/

namespace Sys2Proof.Machine

/-- SHA1_LOAD (R99): the block latched as big-endian words, WK[0..4] from HS[0..4], STEP <- 0. -/
def State.loadSha1 (s : State) : State :=
  { s with
    mw := #v[s.bufBe32 0, s.bufBe32 1, s.bufBe32 2, s.bufBe32 3, s.bufBe32 4, s.bufBe32 5, s.bufBe32 6, s.bufBe32 7,
      s.bufBe32 8, s.bufBe32 9, s.bufBe32 10, s.bufBe32 11, s.bufBe32 12, s.bufBe32 13, s.bufBe32 14, s.bufBe32 15]
    wk := s.hs
    stepNo := 0 }

/-- Wt of step t (R101): MW[t] for t up to 15, and from 16 on the schedule recurrence over the 16-word window. -/
def sha1Word (mw : Vector Word 16) (t : Nat) : Word :=
  if t ≤ 15 then mw[Fin.ofNat 16 t]
  else rotl32 (mw[Fin.ofNat 16 (t - 3)] ^^^ mw[Fin.ofNat 16 (t - 8)] ^^^ mw[Fin.ofNat 16 (t - 14)]
    ^^^ mw[Fin.ofNat 16 t]) 1

/-- The window after step t has produced Wt (R101): from t = 16 on, MW[t mod 16] <- Wt. -/
def sha1Window (mw : Vector Word 16) (t : Nat) : Vector Word 16 :=
  if t ≤ 15 then mw else mw.set (Fin.ofNat 16 t) (sha1Word mw t)

/-- SHA1_SCHED at STEP (R101), its effect on the state: the window. -/
def State.sha1Sched (s : State) : State := { s with mw := sha1Window s.mw s.stepNo.toNat }

/-- temp of one SHA-1 step (R106): rotl32(a, 5) + f(b, c, d) + e + Wt + K. -/
def sha1StepValue (fn : Word → Word → Word → Word) (k : Word) (wt a b c d e : Word) : Word :=
  rotl32 a 5 + fn b c d + e + wt + k

/-- The common SHA-1 step (R106), its schedule operation included, then R111. -/
def State.sha1Step (fn : Word → Word → Word → Word) (k : Word) (s : State) : State :=
  ({ s.sha1Sched with
    wk := #v[sha1StepValue fn k (sha1Word s.mw s.stepNo.toNat) s.wk[0] s.wk[1] s.wk[2] s.wk[3] s.wk[4], s.wk[0],
      rotl32 s.wk[1] 30, s.wk[2], s.wk[3]] } : State).advanceStep Config.sha1Steps

/-- SHA1_STEP_CH (R107). -/
def execSha1StepCh (t : BitVec 7) (s : State) : Result :=
  whenTriggered (stepTriggered 0b100 t) (fun s => .ok (s.sha1Step sha1Ch sha1K0)) s

/-- SHA1_STEP_PAR1 (R108). -/
def execSha1StepPar1 (t : BitVec 7) (s : State) : Result :=
  whenTriggered (stepTriggered 0b101 t) (fun s => .ok (s.sha1Step sha1Parity sha1K1)) s

/-- SHA1_STEP_MAJ (R109). -/
def execSha1StepMaj (t : BitVec 7) (s : State) : Result :=
  whenTriggered (stepTriggered 0b110 t) (fun s => .ok (s.sha1Step sha1Maj sha1K2)) s

/-- SHA1_STEP_PAR2 (R110). -/
def execSha1StepPar2 (t : BitVec 7) (s : State) : Result :=
  whenTriggered (stepTriggered 0b111 t) (fun s => .ok (s.sha1Step sha1Parity sha1K3)) s

/-- SHA1_SCHED as an operation of its own (R101): the part of the SHA-1 step t that produces Wt; step t itself performs it
too, and no transition is this one alone (log 11). -/
def execSha1Sched (t : BitVec 7) (s : State) : Result :=
  whenTriggered (fun s => s.eng = engRun && s.alg = 1 && s.stepNo = t) (fun s => .ok s.sha1Sched) s

/-- SHA1_LOAD as an operation of its own (R99): triggered by DISPATCH with ALG = 1. -/
def execSha1Load (s : State) : Result :=
  whenTriggered (fun s => s.alg = 1 && s.eng ≠ engRun) (fun s => .ok s.loadSha1) s

end Sys2Proof.Machine
end

