-- ==== Sys2Proof/Machine/Padding.lean ====
section
/-! DEFINITION. The padding buffer builder's operations (spec/40_padding.md R70..R74). -/

namespace Sys2Proof.Machine

/-- dispatch() (R71): the selected engine's LOAD, then ENG <- RUN. -/
def State.dispatchBlock (s : State) : State :=
  { (if s.alg = 0 then s.loadMd5 else s.loadSha1) with eng := engRun }

/-- PAD_APPEND (R70): one message byte to BUF[FILL]; FILL and L advance; the byte that makes FILL 64 dispatches the block
and resets FILL. -/
def State.appendByte (b : Byte) (s : State) : Except Fault State := do
  let s ← s.memWrite s.fill.toNat [b]
  let s : State := { s with fill := s.fill + 1, len := s.len + 1 }
  if s.fill = 64 then .ok { s.dispatchBlock with fill := 0 } else .ok s

/-- bitlen = (8 * L) mod 2^64 (R66). -/
def State.bitlen (s : State) : BitVec 64 := 8 * s.len

/-- PAD_FINISH_ONE (R72), for FILL up to 55: terminator, zeros, length field; the one final block is dispatched. -/
def State.finishOneBlock (s : State) : Except Fault State := do
  let field := lengthBytes s.alg s.bitlen
  let fill := s.fill.toNat
  let s ← s.memWrite fill [0x80]
  let s ← s.memWrite (fill + 1) (List.replicate (55 - fill) 0)
  let s ← s.memWrite 56 field
  .ok { s.dispatchBlock with fseq := false, fill := 0 }

/-- PAD_FINISH_TWO (R73), for FILL from 56 to 63: terminator and zeros; the length block follows at completion. -/
def State.finishTwoBlocks (s : State) : Except Fault State := do
  let fill := s.fill.toNat
  let s ← s.memWrite fill [0x80]
  let s ← s.memWrite (fill + 1) (List.replicate (63 - fill) 0)
  .ok { s.dispatchBlock with fseq := true, fill := 0 }

/-- PAD_LENBLOCK (R74): 56 zeros and the length field, dispatched. -/
def State.sendLengthBlock (s : State) : Except Fault State := do
  let field := lengthBytes s.alg s.bitlen
  let s ← s.memWrite 0 (List.replicate 56 0)
  let s ← s.memWrite 56 field
  .ok { s.dispatchBlock with fseq := false }

/-- The completion rule (R118): the length block if it is still to be sent, else ENG <- IDLE. -/
def State.completeBlock (s : State) : Except Fault State :=
  if s.fseq then s.sendLengthBlock else .ok { s with eng := engIdle }

/-- PAD_APPEND as an operation of its own (R70): triggered for each byte accepted in PHASE = ABSORB. -/
def execPadAppend (b : Byte) (s : State) : Result :=
  whenTriggered (fun s => s.phase = phaseAbsorb) (fun s => s.appendByte b) s

/-- DISPATCH as an operation of its own (R71): never over a block still in flight. -/
def execDispatch (s : State) : Result :=
  whenTriggered (fun s => s.eng ≠ engRun) (fun s => .ok s.dispatchBlock) s

/-- PAD_FINISH_ONE as an operation of its own (R72): triggered by FINISH in PHASE = ABSORB with FILL at most 55. -/
def execPadFinishOne (s : State) : Result :=
  whenTriggered (fun s => s.phase = phaseAbsorb && s.fill.toNat ≤ 55) (fun s => s.finishOneBlock) s

/-- PAD_FINISH_TWO as an operation of its own (R73): triggered by FINISH in PHASE = ABSORB with FILL 56 or more. -/
def execPadFinishTwo (s : State) : Result :=
  whenTriggered (fun s => s.phase = phaseAbsorb && 56 ≤ s.fill.toNat) (fun s => s.finishTwoBlocks) s

/-- PAD_LENBLOCK as an operation of its own (R74): triggered at the completion of a block with FSEQ = 1 (R118). -/
def execPadLenblock (s : State) : Result :=
  whenTriggered (fun s => s.eng = engChain && s.fseq) (fun s => s.sendLengthBlock) s

end Sys2Proof.Machine
end

