-- ==== Sys2Proof/Machine/Chain.lean ====
section
/-! DEFINITION. The chaining operations, the completion rule after them in the same transition (spec/41_md5.md R94,
42_sha1.md R112, 43_host_interface.md R118). -/

namespace Sys2Proof.Machine

/-- MD5_CHAIN (R94): HS[0..3] +32 WK[0..3], HS[4] unchanged. -/
def State.chainMd5 (s : State) : State :=
  { s with
    hs := #v[s.hs[0] + s.wk[0], s.hs[1] + s.wk[1], s.hs[2] + s.wk[2], s.hs[3] + s.wk[3], s.hs[4]] }

/-- SHA1_CHAIN (R112): HS[0..4] +32 WK[0..4]. -/
def State.chainSha1 (s : State) : State :=
  { s with
    hs := #v[s.hs[0] + s.wk[0], s.hs[1] + s.wk[1], s.hs[2] + s.wk[2], s.hs[3] + s.wk[3], s.hs[4] + s.wk[4]] }

/-- MD5_CHAIN, then the completion rule (R94, R118). -/
def execMd5Chain (i : BitVec 7) (s : State) : Result :=
  whenTriggered (chainTriggered 0 i) (fun s => s.chainMd5.completeBlock) s

/-- SHA1_CHAIN, then the completion rule (R112, R118). -/
def execSha1Chain (t : BitVec 7) (s : State) : Result :=
  whenTriggered (chainTriggered 1 t) (fun s => s.chainSha1.completeBlock) s

end Sys2Proof.Machine
end

