-- ==== Sys2Proof/Machine/HostInterface.lean ====
section
/-! DEFINITION. The host's commands, data writes and reads (spec/43_host_interface.md R120..R132). -/

namespace Sys2Proof.Machine

/-! ## Commands -/

/-- NOP (R120): no effect; like every write it waits for ENG = IDLE. -/
def execNop (s : State) : Result := hostWrite (mkTw 1 0 0) (fun s => .ok s) s

/-- What INIT_MD5 and INIT_SHA1 share (R121, R122): the initial value, ALG, and a session open on the empty message. -/
def State.openSession (alg : BitVec 1) (initial : Vector Word 5) (s : State) : State :=
  { s with hs := initial, alg := alg, len := 0, fill := 0, fseq := false, phase := phaseAbsorb }

/-- INIT_MD5 (R121). -/
def execInitMd5 (s : State) : Result := hostWrite (mkTw 1 0 1) (fun s => .ok (s.openSession 0 md5Initial)) s

/-- INIT_SHA1 (R122). -/
def execInitSha1 (s : State) : Result := hostWrite (mkTw 1 0 2) (fun s => .ok (s.openSession 1 sha1Initial)) s

/-- What only an open session accepts (R123, R126, R127, R142): else NO_SESSION is recorded and nothing else happens. -/
def State.inSession (act : State → Except Fault State) (s : State) : Except Fault State :=
  if s.phase = phaseAbsorb then act s else .ok (s.raiseHostError errNoSession)

/-- PAD_FINISH_ONE or PAD_FINISH_TWO, by FILL (R123). -/
def State.finishBlocks (s : State) : Except Fault State :=
  if s.fill.toNat ≤ 55 then s.finishOneBlock else s.finishTwoBlocks

/-- The final block or blocks, then PHASE <- DONE (R123). -/
def State.closeSession (s : State) : Except Fault State := do
  let s ← s.finishBlocks
  .ok { s with phase := phaseDone }

/-- FINISH (R123). -/
def execFinish (s : State) : Result := hostWrite (mkTw 1 0 3) (State.inSession State.closeSession) s

/-- CLEAR_ERR (R124). -/
def execClearErr (s : State) : Result := hostWrite (mkTw 1 0 4) (fun s => .ok s.clearHostError) s

/-- An illegal command (R125): ILLEGAL_CMD is recorded, nothing else. -/
def execCmdIllegal (v : Word) (s : State) : Result :=
  hostWrite (mkTw 1 0 v) (fun s => .ok (s.raiseHostError errIllegalCmd)) s

/-! ## Data writes -/

/-- The bytes appended one after the other, PAD_APPEND for each (R126, R127). -/
def State.appendBytes : List Byte → State → Except Fault State
  | [], s => .ok s
  | b :: bs, s => do
    let s ← s.appendByte b
    State.appendBytes bs s

/-- DATA_B (R126): appends v[7:0]; v[31:8] is ignored. -/
def execDataB (v : Word) (s : State) : Result :=
  hostWrite (mkTw 1 2 v) (State.inSession (State.appendBytes [wordByte v 0])) s

/-- DATA_W (R127): appends four bytes, the lowest first. -/
def execDataW (v : Word) (s : State) : Result :=
  hostWrite (mkTw 1 3 v) (State.inSession (State.appendBytes (le32bytes v))) s

/-- WR_BAD (R128): BAD_ACCESS is recorded, nothing else. -/
def execWrBad (slot : Slot) (v : Word) (s : State) : Result :=
  hostWrite (mkTw 1 slot v) (fun s => .ok (s.raiseHostError errBadAccess)) s

/-! ## Reads: the DATA field is ignored -/

/-- RD_STATUS (R129). -/
def execRdStatus (_v : Word) (s : State) : Result := hostRead State.statusWord s

/-- RD_LEN_LO (R130). -/
def execRdLenLo (_v : Word) (s : State) : Result := hostRead State.lenLo s

/-- RD_LEN_HI (R130). -/
def execRdLenHi (_v : Word) (s : State) : Result := hostRead State.lenHi s

/-- RD_DIGEST0 (R131). -/
def execRdDigest0 (_v : Word) (s : State) : Result := hostRead (fun s => s.digestWord 0) s

/-- RD_DIGEST1 (R131). -/
def execRdDigest1 (_v : Word) (s : State) : Result := hostRead (fun s => s.digestWord 1) s

/-- RD_DIGEST2 (R131). -/
def execRdDigest2 (_v : Word) (s : State) : Result := hostRead (fun s => s.digestWord 2) s

/-- RD_DIGEST3 (R131). -/
def execRdDigest3 (_v : Word) (s : State) : Result := hostRead (fun s => s.digestWord 3) s

/-- RD_DIGEST4 (R131). -/
def execRdDigest4 (_v : Word) (s : State) : Result := hostRead (fun s => s.digestWord 4) s

/-- RD_ZERO (R132): a write-only or unmapped slot reads 0. -/
def execRdZero (_slot : Slot) (_v : Word) (s : State) : Result := hostRead (fun _ => 0) s

end Sys2Proof.Machine
end

