-- ==== Sys2Proof/Machine/Dispatch.lean ====
section
/-! DEFINITION. What each instruction does: one arm for each constructor, one direct call of its meaning. -/

namespace Sys2Proof.Machine

def exec (i : Instr) (s : State) : Host.Outcome State Fault Refusal :=
  match i with
  | .nop => Sys2Proof.Machine.execNop s
  | .initMd5 => Sys2Proof.Machine.execInitMd5 s
  | .initSha1 => Sys2Proof.Machine.execInitSha1 s
  | .finish => Sys2Proof.Machine.execFinish s
  | .clearErr => Sys2Proof.Machine.execClearErr s
  | .cmdIllegal v => Sys2Proof.Machine.execCmdIllegal v s
  | .dataB v => Sys2Proof.Machine.execDataB v s
  | .dataW v => Sys2Proof.Machine.execDataW v s
  | .wrBad slot v => Sys2Proof.Machine.execWrBad slot v s
  | .rdStatus v => Sys2Proof.Machine.execRdStatus v s
  | .rdLenLo v => Sys2Proof.Machine.execRdLenLo v s
  | .rdLenHi v => Sys2Proof.Machine.execRdLenHi v s
  | .rdDigest0 v => Sys2Proof.Machine.execRdDigest0 v s
  | .rdDigest1 v => Sys2Proof.Machine.execRdDigest1 v s
  | .rdDigest2 v => Sys2Proof.Machine.execRdDigest2 v s
  | .rdDigest3 v => Sys2Proof.Machine.execRdDigest3 v s
  | .rdDigest4 v => Sys2Proof.Machine.execRdDigest4 v s
  | .rdZero slot v => Sys2Proof.Machine.execRdZero slot v s
  | .md5StepF x => Sys2Proof.Machine.execMd5StepF x s
  | .md5StepG x => Sys2Proof.Machine.execMd5StepG x s
  | .md5StepH x => Sys2Proof.Machine.execMd5StepH x s
  | .md5StepI x => Sys2Proof.Machine.execMd5StepI x s
  | .sha1StepCh t => Sys2Proof.Machine.execSha1StepCh t s
  | .sha1StepPar1 t => Sys2Proof.Machine.execSha1StepPar1 t s
  | .sha1StepMaj t => Sys2Proof.Machine.execSha1StepMaj t s
  | .sha1StepPar2 t => Sys2Proof.Machine.execSha1StepPar2 t s
  | .sha1Sched t => Sys2Proof.Machine.execSha1Sched t s
  | .md5Chain x => Sys2Proof.Machine.execMd5Chain x s
  | .sha1Chain t => Sys2Proof.Machine.execSha1Chain t s
  | .padAppend b => Sys2Proof.Machine.execPadAppend b s
  | .dispatch => Sys2Proof.Machine.execDispatch s
  | .md5Load => Sys2Proof.Machine.execMd5Load s
  | .sha1Load => Sys2Proof.Machine.execSha1Load s
  | .padFinishOne => Sys2Proof.Machine.execPadFinishOne s
  | .padFinishTwo => Sys2Proof.Machine.execPadFinishTwo s
  | .padLenblock => Sys2Proof.Machine.execPadLenblock s

end Sys2Proof.Machine
end

