-- ==== Sys2Proof/Machine/Step.lean ====
section
/-! DEFINITION. One step of the machine (spec/43_host_interface.md R116..R119, 70_reset_and_hazards.md R156). -/

namespace Sys2Proof.Machine

/-- The engine's transition (R117): the operation the engine control word decodes to. -/
def engineTransition (s : State) : Result :=
  match decode (.ecw s.ecw) with
  | .ok i => exec i s.takeTurn
  | .error _ => .fault .notTriggered

/-- The host's transition (R116, R119): its next transaction, or, where it has issued none, waiting (R159; log 17). -/
def hostTransition (s : State) : Result :=
  match s.hostq with
  | [] => .next s.takeTurn
  | tw :: _ =>
    match decode (.tw tw) with
    | .ok i => exec i s.takeTransaction
    | .error _ => .fault .notTriggered

/-- One transition (R119): of the host, of the engine, or reset; from a state that shows a broken invariant, a fault
(R61). -/
def step (s : State) : Host.Outcome State Fault Refusal :=
  s.checked fun s =>
    match s.nextTurn with
    | .reset keeps => .next (s.takeReset keeps)
    | .engine => engineTransition s
    | .host => hostTransition s

/-- s with a transaction word as the host's next transaction and the host's turn, the engine idle, so that a write need
not wait (R116). -/
def State.withTransaction (tw : Tw) (s : State) : State :=
  { s with eng := engIdle, fseq := false, hostq := tw :: s.hostq, sched := .host :: s.sched }

/-- s with ENG, ALG and STEP as an engine control word has them, FSEQ as it may stand with that ENG, and the engine's
turn. -/
def State.withEngineWord (w : Ecw) (s : State) : State :=
  { s with
    eng := ecwEng w, alg := ecwAlg w, stepNo := ecwStep w, fseq := s.fseq && ecwEng w ≠ engIdle
    sched := .engine :: s.sched }

/-- s with the instruction of a row of spec/opcode_table.json where step takes its next instruction from: a row of at most
16 bits is an engine control word, which ENG, ALG and STEP are; a longer one is a transaction the host issues (log 19). -/
def State.withFetchWord (s : State) (nbits w : Nat) : State :=
  if nbits ≤ 16 then s.withEngineWord (BitVec.ofNat 10 w) else s.withTransaction (BitVec.ofNat 37 w)

end Sys2Proof.Machine
end

