-- ==== Sys2Proof/Machine/Algorithm.lean ====
section
/-! DEFINITION. What the CHDC computes, as pure functions of byte sequences: the padding function (spec/40_padding.md
R64..R68), the two compression functions (41_md5.md R95, 42_sha1.md R100, R113) and the digests (R41, R96, R114). The
machine does not run these; statements compare it with them. -/

namespace Sys2Proof.Machine

/-! ## Padding -/

/-- z = (55 - L) mod 64, the number of whole zero bytes (R64); `%` on Int is never negative here. -/
def zeroCount (n : Nat) : Nat := ((55 - (n : Int)) % 64).toNat

/-- pad_zero_bits(len_bits) = (448 - (len_bits + 1)) mod 512 (R65). -/
def padZeroBits (lenBits : Nat) : Nat := ((448 - ((lenBits : Int) + 1)) % 512).toNat

/-- bitlen = (8 * L) mod 2^64 of a message of n bytes (R64, R66). -/
def messageBits (n : Nat) : BitVec 64 := BitVec.ofNat 64 (8 * n)

/-- pad(m, alg) (R64). -/
def padMessage (alg : BitVec 1) (m : List Byte) : List Byte :=
  m ++ [0x80] ++ List.replicate (zeroCount m.length) 0 ++ lengthBytes alg (messageBits m.length)

/-- The number of blocks of the padded message, floor((L + 8) / 64) + 1 (R67 item 4). -/
def blockCount (n : Nat) : Nat := (n + 8) / 64 + 1

/-- Block j of the padded message: its bytes 64j .. 64j+63 (R68). -/
def padBlock (alg : BitVec 1) (m : List Byte) (j : Nat) : List Byte := ((padMessage alg m).drop (64 * j)).take 64

/-! ## Words of a block -/

/-- Byte a of a block. -/
def blockByte (block : List Byte) (a : Nat) : Byte := block.getD a 0

/-- The 16 words of a block, little-endian (R38). -/
def leWords (block : List Byte) : Vector Word 16 :=
  Vector.ofFn fun j => le32 (blockByte block (4 * j)) (blockByte block (4 * j + 1)) (blockByte block (4 * j + 2))
    (blockByte block (4 * j + 3))

/-- The 16 words of a block, big-endian (R39). -/
def beWords (block : List Byte) : Vector Word 16 :=
  Vector.ofFn fun j => be32 (blockByte block (4 * j)) (blockByte block (4 * j + 1)) (blockByte block (4 * j + 2))
    (blockByte block (4 * j + 3))

/-! ## MD5 compression -/

/-- The round function of MD5 step i (R58, R80..R83). -/
def md5Function (i : Nat) : Word → Word → Word → Word :=
  if i < 16 then md5F else if i < 32 then md5G else if i < 48 then md5H else md5I

/-- WK after MD5 step i (R88). -/
def md5Round1 (x : Vector Word 16) (w : Vector Word 5) (i : Nat) : Vector Word 5 :=
  #v[w[3], md5StepValue (md5Function i) i x w[0] w[1] w[2] w[3], w[1], w[2], w[4]]

/-- WK after the first n MD5 steps of a block with words x, from WK = w (R93). -/
def md5Rounds (x : Vector Word 16) (w : Vector Word 5) (n : Nat) : Vector Word 5 :=
  (List.range n).foldl (md5Round1 x) w

/-- The MD5 compression function over HS[0..3] (R95); HS[4] plays no part and is kept (R94). -/
def md5Compress (h : Vector Word 5) (block : List Byte) : Vector Word 5 :=
  let w := md5Rounds (leWords block) h Config.md5Steps
  #v[h[0] + w[0], h[1] + w[1], h[2] + w[2], h[3] + w[3], h[4]]

/-! ## SHA-1 compression -/

/-- The schedule with one more word: W[t] = rotl32(W[t-3] ^ W[t-8] ^ W[t-14] ^ W[t-16], 1), t the length so far (R100). -/
def sha1Extend (w : List Word) : List Word :=
  w ++ [rotl32 (w.getD (w.length - 3) 0 ^^^ w.getD (w.length - 8) 0 ^^^ w.getD (w.length - 14) 0
    ^^^ w.getD (w.length - 16) 0) 1]

/-- The message schedule of a block with words x after n recurrences; the 80 words for n = 64 (R100). -/
def sha1ScheduleOf (x : Vector Word 16) : Nat → List Word
  | 0 => x.toList
  | n + 1 => sha1Extend (sha1ScheduleOf x n)

/-- W[0..79] of a block with words x (R100). -/
def sha1Schedule (x : Vector Word 16) : List Word := sha1ScheduleOf x 64

/-- The band function of SHA-1 step t (R105). -/
def sha1Function (t : Nat) : Word → Word → Word → Word :=
  if t < 20 then sha1Ch else if t < 40 then sha1Parity else if t < 60 then sha1Maj else sha1Parity

/-- The band constant of SHA-1 step t (R105). -/
def sha1Constant (t : Nat) : Word :=
  if t < 20 then sha1K0 else if t < 40 then sha1K1 else if t < 60 then sha1K2 else sha1K3

/-- WK after SHA-1 step t, over the schedule W (R106). -/
def sha1Round1 (ws : List Word) (w : Vector Word 5) (t : Nat) : Vector Word 5 :=
  #v[sha1StepValue (sha1Function t) (sha1Constant t) (ws.getD t 0) w[0] w[1] w[2] w[3] w[4], w[0], rotl32 w[1] 30,
    w[2], w[3]]

/-- WK after the first n SHA-1 steps (R111). -/
def sha1Rounds (ws : List Word) (w : Vector Word 5) (n : Nat) : Vector Word 5 :=
  (List.range n).foldl (sha1Round1 ws) w

/-- The SHA-1 compression function (R113). -/
def sha1Compress (h : Vector Word 5) (block : List Byte) : Vector Word 5 :=
  let w := sha1Rounds (sha1Schedule (beWords block)) h Config.sha1Steps
  #v[h[0] + w[0], h[1] + w[1], h[2] + w[2], h[3] + w[3], h[4] + w[4]]

/-! ## Digests -/

/-- The initial value of an algorithm (R78, R98). -/
def initialOf (alg : BitVec 1) : Vector Word 5 := if alg = 0 then md5Initial else sha1Initial

/-- The compression function of an algorithm (R95, R113). -/
def compress (alg : BitVec 1) (h : Vector Word 5) (block : List Byte) : Vector Word 5 :=
  if alg = 0 then md5Compress h block else sha1Compress h block

/-- HS after the blocks of pad(m, alg), folded from the initial value (R96, R114). -/
def hashState (alg : BitVec 1) (m : List Byte) : Vector Word 5 :=
  (List.range (blockCount m.length)).foldl (fun h j => compress alg h (padBlock alg m j)) (initialOf alg)

/-- The 16 bytes of an MD5 digest (R41). -/
def md5DigestBytes (h : Vector Word 5) : List Byte :=
  le32bytes h[0] ++ le32bytes h[1] ++ le32bytes h[2] ++ le32bytes h[3]

/-- The 20 bytes of a SHA-1 digest (R41). -/
def sha1DigestBytes (h : Vector Word 5) : List Byte :=
  be32bytes h[0] ++ be32bytes h[1] ++ be32bytes h[2] ++ be32bytes h[3] ++ be32bytes h[4]

/-- hash_md5(m) and hash_sha1(m) (R134). -/
def digestBytes (alg : BitVec 1) (m : List Byte) : List Byte :=
  if alg = 0 then md5DigestBytes (hashState 0 m) else sha1DigestBytes (hashState 1 m)

end Sys2Proof.Machine
end

