-- ==== Sys2Proof/Machine/Assembler.lean ====
section
/-! DEFINITION. The host assembly language and the expansion of its pseudo-instructions into transaction words
(spec/30_encoding.md R63). -/

namespace Sys2Proof.Machine

/-- The register names of the assembly language (R63, R37). -/
inductive HostReg where
  | cmd
  | status
  | dataB
  | dataW
  | lenLo
  | lenHi
  | digest (n : Fin 5)
  | slot (n : Slot)
  deriving DecidableEq, Repr

/-- The slot of a register name (R37). -/
def slotOf : HostReg → Slot
  | .cmd => 0
  | .status => 1
  | .dataB => 2
  | .dataW => 3
  | .lenLo => 4
  | .lenHi => 5
  | .digest n => BitVec.ofNat 4 (8 + n)
  | .slot n => n

/-- A line of host assembly, but for WAIT and WAITDONE, which are loops of the host (R63, R133; log 20). -/
inductive AsmLine where
  | wr (r : HostReg) (v : Word)
  | rd (r : HostReg)
  | nop
  | initMd5
  | initSha1
  | finish
  | clrErr
  | putB (b : Byte)
  | putW (b0 b1 b2 b3 : Byte)
  | absorb (bytes : List Byte)
  deriving DecidableEq, Repr

/-- `WR <reg>, <imm32>` encodes as {1, slot(reg), imm32} (R63). -/
def asmWrite (r : HostReg) (v : Word) : Tw := mkTw 1 (slotOf r) v

/-- `RD <reg>` encodes as {0, slot(reg), 0x00000000} (R63). -/
def asmRead (r : HostReg) : Tw := mkTw 0 (slotOf r) 0

/-- ABSORB (R63): one PUTW for each whole group of four bytes, in order, then one PUTB for each remaining byte. -/
def absorbWords : List Byte → List Tw
  | b0 :: b1 :: b2 :: b3 :: rest => asmWrite .dataW (le32 b0 b1 b2 b3) :: absorbWords rest
  | rest => rest.map fun b => asmWrite .dataB (b.setWidth 32)

/-- The transactions of a line (R63). -/
def assemble : AsmLine → List Tw
  | .wr r v => [asmWrite r v]
  | .rd r => [asmRead r]
  | .nop => [asmWrite .cmd 0x0]
  | .initMd5 => [asmWrite .cmd 0x1]
  | .initSha1 => [asmWrite .cmd 0x2]
  | .finish => [asmWrite .cmd 0x3]
  | .clrErr => [asmWrite .cmd 0x4]
  | .putB b => [asmWrite .dataB (b.setWidth 32)]
  | .putW b0 b1 b2 b3 => [asmWrite .dataW (le32 b0 b1 b2 b3)]
  | .absorb bytes => absorbWords bytes

/-- WAIT repeats RD STATUS until bit 0, BUSY, of the response is 0 (R63). -/
def waitEnds (response : Word) : Bool := response.extractLsb' 0 1 = 0

/-- WAITDONE repeats RD STATUS until bit 1, DONE, of the response is 1 (R63). -/
def waitDoneEnds (response : Word) : Bool := response.extractLsb' 1 1 = 1

end Sys2Proof.Machine
end

