-- ==== Sys2Proof/Safety.lean ====
section
/-! DEFINITION. The invariant of the machine, what the host can observe, and the kinds of instruction, in the terms the
statements use. -/

namespace Sys2Proof.Machine

/-- What holds in every state that a run from reset meets (10_state.md R16, R19..R27, 30_encoding.md R61). -/
structure Inv (s : State) : Prop where
  /-- BUF is in canonical form (log 3). -/
  bufCanonical : s.buf.wf = true
  /-- ENG is never 3 (R20). -/
  engLegal : s.eng ≠ 3
  /-- PHASE is never 3 (R26). -/
  phaseLegal : s.phase ≠ 3
  /-- STEP is in range while ENG = RUN (R19). -/
  stepInRange : s.eng = engRun → s.stepNo.toNat < stepsOf s.alg
  /-- STEP is the block's number of steps while ENG = CHAIN (R93, R111). -/
  stepAtChain : s.eng = engChain → s.stepNo.toNat = stepsOf s.alg
  /-- FSEQ = 1 implies that ENG is not IDLE (R21). -/
  fseqBusy : s.fseq = true → s.eng ≠ engIdle
  /-- FSEQ = 1 only in a session that FINISH has closed (R73, R123). -/
  fseqDone : s.fseq = true → s.phase = phaseDone
  /-- A block is in flight only in a session (R71, R142). -/
  busyInSession : s.eng ≠ engIdle → s.phase ≠ phaseIdle
  /-- FILL is at most 63 (R23). -/
  fillInBlock : s.fill.toNat ≤ 63
  /-- FILL = L mod 64 while PHASE = ABSORB (R69). -/
  fillIsLen : s.phase = phaseAbsorb → s.fill.toNat = s.len.toNat % 64
  /-- FILL is 0 in every other phase (R72, R73, R156). -/
  fillOutside : s.phase ≠ phaseAbsorb → s.fill = 0
  /-- ERRCODE is one of the codes 0..3 (R140). -/
  errcodeLegal : s.errcode.toNat ≤ 3
  /-- ERRCODE is 0 exactly when ERR is 0 (R27). -/
  errcodeZero : s.errcode = 0 ↔ s.err = false
  /-- HS[4] is 0 while ALG = 0 (R16, R30). -/
  md5FifthWord : s.alg = 0 → s.hs[4] = 0

/-- The commands INIT_MD5 and INIT_SHA1. -/
def isInit (i : Instr) : Bool := i = .initMd5 || i = .initSha1

/-- The engine's transitions (R117). -/
def isEngineOp : Instr → Bool
  | .md5StepF _ => true
  | .md5StepG _ => true
  | .md5StepH _ => true
  | .md5StepI _ => true
  | .sha1StepCh _ => true
  | .sha1StepPar1 _ => true
  | .sha1StepMaj _ => true
  | .sha1StepPar2 _ => true
  | .md5Chain _ => true
  | .sha1Chain _ => true
  | _ => false

/-- The host's reads (R129..R132). -/
def isReadOp : Instr → Bool
  | .rdStatus _ => true
  | .rdLenLo _ => true
  | .rdLenHi _ => true
  | .rdDigest0 _ => true
  | .rdDigest1 _ => true
  | .rdDigest2 _ => true
  | .rdDigest3 _ => true
  | .rdDigest4 _ => true
  | .rdZero _ _ => true
  | _ => false

/-- The 64 bytes of BUF. -/
def State.bufBlock (s : State) : List Byte := (List.range 64).map s.buf.read

/-- The words of a block as the algorithm's engine reads them (R38, R39). -/
def wordsOf (alg : BitVec 1) (block : List Byte) : Vector Word 16 := if alg = 0 then leWords block else beWords block

/-- t is what dispatch() makes of BUF as it stands in t, with HS, ALG and WK[4] as they stand in s (R71, R79, R99). -/
structure HandedOver (s t : State) : Prop where
  running : t.eng = engRun
  first : t.stepNo = 0
  words : t.mw = wordsOf s.alg t.bufBlock
  working : t.wk[0] = s.hs[0] ∧ t.wk[1] = s.hs[1] ∧ t.wk[2] = s.hs[2] ∧ t.wk[3] = s.hs[3]
  working4 : t.wk[4] = if s.alg = 0 then s.wk[4] else s.hs[4]

/-- A session open on the message m so far: FILL and L count it, and BUF holds its last, partial block (R69). -/
structure HoldsTail (m : List Byte) (s : State) : Prop where
  absorbing : s.phase = phaseAbsorb
  count : s.len = BitVec.ofNat 64 m.length
  filled : s.fill.toNat = m.length % 64
  tail : ∀ a, a < m.length % 64 → s.buf.read a = m.getD (64 * (m.length / 64) + a) 0

/-- The 16-word window after the schedule operation of steps 0..n-1 of a block with words x (R101). -/
def windowAfter (x : Vector Word 16) (n : Nat) : Vector Word 16 := (List.range n).foldl sha1Window x

/-- No reset is asserted before the next transition. -/
abbrev State.noResetNow (s : State) : Prop := ∀ keeps, s.sched.head? ≠ some (.reset keeps)

/-- Two states between which no transaction can tell: they agree on everything but BUF at offsets from FILL on, BUF
altogether outside ABSORB, WK and MW while no block is in flight, and WK[4] in an MD5 block (R22, R35, R157, U1..U4). -/
structure SameVisible (s t : State) : Prop where
  hs : s.hs = t.hs
  stepNo : s.stepNo = t.stepNo
  eng : s.eng = t.eng
  fseq : s.fseq = t.fseq
  fill : s.fill = t.fill
  len : s.len = t.len
  alg : s.alg = t.alg
  phase : s.phase = t.phase
  err : s.err = t.err
  errcode : s.errcode = t.errcode
  hostq : s.hostq = t.hostq
  sched : s.sched = t.sched
  resp : s.resp = t.resp
  tail : s.phase = phaseAbsorb → ∀ a, a < s.fill.toNat → s.buf.read a = t.buf.read a
  words : s.eng ≠ engIdle → s.mw = t.mw
  working : s.eng ≠ engIdle → s.wk[0] = t.wk[0] ∧ s.wk[1] = t.wk[1] ∧ s.wk[2] = t.wk[2] ∧ s.wk[3] = t.wk[3]
  working4 : s.eng ≠ engIdle → s.alg = 1 → s.wk[4] = t.wk[4]

/-- Two outcomes of the same kind, with next states that cannot be told apart, or with the same reason. -/
def SameOutcome : Result → Result → Prop
  | .next s, .next t => SameVisible s t
  | .fault f, .fault g => f = g
  | .refused f, .refused g => f = g
  | _, _ => False

/-- The platform asserts no reset in the rest of the schedule. -/
def noReset (sched : List Turn) : Bool :=
  sched.all fun t => match t with
    | .reset _ => false
    | .engine => true
    | .host => true

/-- The message bytes that a data write appends in an open session: one for DATA_B, four for DATA_W (R42); none for any
other transaction. -/
def bytesOf (tw : Tw) : List Byte :=
  match decodeTw tw with
  | .dataB v => [wordByte v 0]
  | .dataW v => le32bytes v
  | _ => []

/-- A transaction that is a DATA_B or DATA_W write. -/
def isDataWrite (tw : Tw) : Bool :=
  match decodeTw tw with
  | .dataB _ => true
  | .dataW _ => true
  | _ => false

end Sys2Proof.Machine
end

