-- ==== Sys2Proof/Certificates/Slice0/Obligations.lean ====
section
/-! DEFINITION. The statements for the provers. `resp`, `hostq` and `sched` are the model's own fields (logs 4, 5, 7):
where a rule says nothing of the response, the statement leaves it open (`∃ r`). -/

open Sys2Proof Sys2Proof.Machine

/-! ## Encoding -/

/-- Decoding an encoded well-formed instruction gives it back, with every operand at every value (R54..R58). SHA1_SCHED is
left out because its word is the word of the SHA-1 step it belongs to (R58, log 11). -/
def Obligations.DecodeOfEncodeIsTheInstruction : Prop :=
  ∀ (i : Instr) (c : Code), i.wellFormed = true → encode i = some c → (∀ t, i ≠ .sha1Sched t) → decode c = .ok i

/-- Encoding what a word decodes to gives the word back, and what it decodes to is well-formed: no bit is dropped. -/
def Obligations.EncodeOfDecodeIsTheWord : Prop :=
  ∀ (c : Code) (i : Instr), decode c = .ok i → i.wellFormed = true ∧ encode i = some c

/-- R57, with the command word of R55: the tests that decode a transaction word, and that every word decodes to exactly
one row of opcode_table.json. -/
def Obligations.TransactionWordsDecodeToOneRow : Prop :=
  ∀ w : Tw, ∃ i, decode (.tw w) = .ok i ∧
    (twWe w = 1 → twSlot w = 0 → commandReserved (twData w) = 0 →
      (commandOp (twData w) = 0 → i = .nop) ∧ (commandOp (twData w) = 1 → i = .initMd5) ∧
      (commandOp (twData w) = 2 → i = .initSha1) ∧ (commandOp (twData w) = 3 → i = .finish) ∧
      (commandOp (twData w) = 4 → i = .clearErr) ∧
      (5 ≤ (commandOp (twData w)).toNat → i = .cmdIllegal (twData w))) ∧
    (twWe w = 1 → twSlot w = 0 → commandReserved (twData w) ≠ 0 → i = .cmdIllegal (twData w)) ∧
    (twWe w = 1 → twSlot w = 2 → i = .dataB (twData w)) ∧
    (twWe w = 1 → twSlot w = 3 → i = .dataW (twData w)) ∧
    (twWe w = 1 → (twSlot w = 1 ∨ 4 ≤ (twSlot w).toNat) → i = .wrBad (twSlot w) (twData w)) ∧
    (twWe w = 0 → twSlot w = 1 → i = .rdStatus (twData w)) ∧
    (twWe w = 0 → twSlot w = 4 → i = .rdLenLo (twData w)) ∧
    (twWe w = 0 → twSlot w = 5 → i = .rdLenHi (twData w)) ∧
    (twWe w = 0 → twSlot w = 8 → i = .rdDigest0 (twData w)) ∧
    (twWe w = 0 → twSlot w = 9 → i = .rdDigest1 (twData w)) ∧
    (twWe w = 0 → twSlot w = 10 → i = .rdDigest2 (twData w)) ∧
    (twWe w = 0 → twSlot w = 11 → i = .rdDigest3 (twData w)) ∧
    (twWe w = 0 → twSlot w = 12 → i = .rdDigest4 (twData w)) ∧
    (twWe w = 0 → (twSlot w = 0 ∨ twSlot w = 2 ∨ twSlot w = 3 ∨ twSlot w = 6 ∨ twSlot w = 7 ∨ 13 ≤ (twSlot w).toNat) →
      i = .rdZero (twSlot w) (twData w)) ∧
    (hostRows.filter (rowMatches w)).map TableRow.name = [mnemonic i]

/-- R58: the match/mask rows of opcode_table.json over the engine control word give the same decode as FSEL and ENG, and
the SHA1_SCHED rows mark exactly the SHA-1 steps from 16 on. -/
def Obligations.EngineWordRowsAgreeWithTheSelector : Prop :=
  ∀ w : Ecw,
    (engineRows.filter (rowMatches w)).map TableRow.name =
      (match decode (.ecw w) with
        | .ok i => [mnemonic i]
        | .error _ => []) ∧
    (schedRows.any (rowMatches w) = true ↔
      ecwEng w = 1 ∧ ecwAlg w = 1 ∧ 16 ≤ (ecwStep w).toNat ∧ (ecwStep w).toNat < 80)

/-- A few words written out from the encodings of R54..R58, and what they decode to. -/
def Obligations.WrittenWordsDecode : Prop :=
  decode (.tw 0x1000000003) = .ok .finish ∧ decode (.tw 0x1000000011) = .ok (.cmdIllegal 0x11) ∧
  decode (.tw 0x1200000161) = .ok (.dataB 0x161) ∧ decode (.tw 0x1364636261) = .ok (.dataW 0x64636261) ∧
  decode (.tw 0x1800000000) = .ok (.wrBad 8 0) ∧ decode (.tw 0x0100000000) = .ok (.rdStatus 0) ∧
  decode (.tw 0x0C00000000) = .ok (.rdDigest4 0) ∧ decode (.tw 0x0600000000) = .ok (.rdZero 6 0) ∧
  decode (.ecw 0x10F) = .ok (.md5StepF 15) ∧ decode (.ecw 0x193) = .ok (.sha1StepCh 19) ∧
  decode (.ecw 0x1CF) = .ok (.sha1StepPar2 79) ∧ decode (.ecw 0x240) = .ok (.md5Chain 64)

/-- R63: ABSORB expands to data writes only, and they append exactly the bytes of its string, in order. -/
def Obligations.AbsorbExpandsToItsBytes : Prop :=
  ∀ m : List Byte, (assemble (.absorb m)).all isDataWrite = true ∧ (assemble (.absorb m)).flatMap bytesOf = m

/-! ## One step -/

/-- A step performs the host's next transaction when it may (R116, R119): it runs the instruction the word decodes to,
the transaction and the schedule's turn taken. -/
def Obligations.StepRunsTheHostsTransaction : Prop :=
  ∀ (s : State) (tw : Tw) (rest : List Tw) (i : Instr),
    s.broken = none → s.noResetNow → s.hostq = tw :: rest → decode (.tw tw) = .ok i →
    (s.eng = engIdle ∨ (isRead tw = true ∧ s.sched.head? = some .host)) →
    step s = exec i { s with hostq := rest, sched := s.sched.tail }

/-- R117: when ENG is not IDLE and no read is performed, a step runs the one engine operation that the engine control
word {ENG, ALG, STEP} decodes to. -/
def Obligations.StepRunsTheEnginesOperation : Prop :=
  ∀ s : State, s.broken = none → s.noResetNow → s.eng ≠ engIdle →
    (s.sched.head? = some .host → s.readPending = false) →
    ∃ i, decode (.ecw s.ecw) = .ok i ∧ isEngineOp i = true ∧ step s = exec i { s with sched := s.sched.tail }

/-- The model's choice (log 17): with the engine idle and no transaction issued, a step only uses up a turn (R159). -/
def Obligations.IdleMachineWaits : Prop :=
  ∀ s : State, s.broken = none → s.noResetNow → s.eng = engIdle → s.hostq = [] →
    step s = .next { s with sched := s.sched.tail }

/-- R116: while ENG is not IDLE a write waits. A step leaves it first on the bus, and the host sees no response. -/
def Obligations.WriteWaitsWhileBusy : Prop :=
  ∀ (s t : State) (tw : Tw) (rest : List Tw), s.noResetNow → s.eng ≠ engIdle → s.hostq = tw :: rest →
    isRead tw = false → step s = .next t →
    t.hostq = tw :: rest ∧ t.resp = s.resp ∧
      ∃ i, decode (.ecw s.ecw) = .ok i ∧ isEngineOp i = true ∧ step s = exec i { s with sched := s.sched.tail }

/-- A write handed to exec while ENG is not IDLE is put back on the bus and changes nothing else (R116; log 16). -/
def Obligations.BusyWriteIsHeld : Prop :=
  ∀ (i : Instr) (tw : Tw) (s : State), s.broken = none → s.eng ≠ engIdle → encode i = some (.tw tw) →
    isRead tw = false → exec i s = .next { s with hostq := tw :: s.hostq }

/-- R119, R116: a waiting write is eventually accepted. Without a reset, the engine is idle after at most 162 steps (two
blocks of 80 steps and a chaining), the write still first on the bus. -/
def Obligations.WaitingWriteIsAccepted : Prop :=
  ∀ (s : State) (tw : Tw) (rest : List Tw), Inv s → noReset s.sched = true → s.hostq = tw :: rest →
    isRead tw = false →
    ∃ n ≤ 162, ∃ t, Sys2Proof.core.run n s = .next t ∧ t.eng = engIdle ∧ t.hostq = tw :: rest

/-! ## Reset -/

/-- R156: the reset transition, and what the host reads after it. -/
def Obligations.ResetTransition : Prop :=
  ∀ (s : State) (keeps : Bool) (rest : List Turn), s.broken = none → s.sched = .reset keeps :: rest →
    ∃ t, step s = .next t ∧
      t.hs = #v[0, 0, 0, 0, 0] ∧ t.alg = 0 ∧ t.len = 0 ∧ t.fill = 0 ∧ t.phase = phaseIdle ∧
      t.eng = engIdle ∧ t.stepNo = 0 ∧ t.fseq = false ∧ t.err = false ∧ t.errcode = 0 ∧
      ∀ v, exec (.rdStatus v) t = .next { t with resp := some 0 } ∧
        exec (.rdLenLo v) t = .next { t with resp := some 0 } ∧ exec (.rdLenHi v) t = .next { t with resp := some 0 } ∧
        exec (.rdDigest0 v) t = .next { t with resp := some 0 } ∧
        exec (.rdDigest1 v) t = .next { t with resp := some 0 } ∧
        exec (.rdDigest2 v) t = .next { t with resp := some 0 } ∧
        exec (.rdDigest3 v) t = .next { t with resp := some 0 } ∧
        exec (.rdDigest4 v) t = .next { t with resp := some 0 }

/-- R158, U16: a write that was waiting when reset arrived is still on the bus or gone, as the platform chooses (`keeps`,
log 6); every other transaction still comes. -/
def Obligations.ResetAndTheWaitingWrite : Prop :=
  ∀ (s : State) (keeps : Bool) (rest : List Turn), s.broken = none → s.sched = .reset keeps :: rest →
    ∃ t, step s = .next t ∧ t.sched = rest ∧
      ((keeps = true ∨ s.eng = engIdle ∨ s.readPending = true) → t.hostq = s.hostq) ∧
      (keeps = false → s.eng ≠ engIdle → s.readPending = false → t.hostq = s.hostq.tail)

/-- R157: the values of reset that the spec states, in the state right after it. -/
def Obligations.ResetStateValues : Prop :=
  State.reset.hs = #v[0, 0, 0, 0, 0] ∧ State.reset.stepNo = 0 ∧ State.reset.eng = engIdle ∧
  State.reset.fseq = false ∧ State.reset.fill = 0 ∧ State.reset.len = 0 ∧ State.reset.alg = 0 ∧
  State.reset.phase = phaseIdle ∧ State.reset.err = false ∧ State.reset.errcode = 0 ∧ State.reset.statusWord = 0

/-! ## Invariants and whole-machine claims -/

/-- The invariant holds in the state right after reset. -/
def Obligations.InvHoldsAtReset : Prop := Inv State.reset

/-- Every step keeps the invariant, from every state that has it. -/
def Obligations.EveryStepKeepsInv : Prop := ∀ s t : State, Inv s → step s = .next t → Inv t

/-- R136, R61: from a state of the invariant every step completes. No operation faults, none is refused. -/
def Obligations.NoStepFromInvStops : Prop := ∀ s : State, Inv s → ∃ t, step s = .next t

/-- R61, U5, U6: a state with ENG = 3, PHASE = 3, STEP out of range while ENG = RUN, FSEQ = 1 with ENG = IDLE, or a
reserved ERRCODE makes every operation, and every step, fault and not compute. That U5's and U6's states fault even for an
operation that does not read the field is the model's reading (log 8). -/
def Obligations.BrokenStatesFault : Prop :=
  ∀ s : State,
    (s.eng = 3 ∨ s.phase = 3 ∨ (s.eng = engRun ∧ stepsOf s.alg ≤ s.stepNo.toNat) ∨
      (s.fseq = true ∧ s.eng = engIdle) ∨ 4 ≤ s.errcode.toNat) →
    ∃ f, step s = .fault f ∧ ∀ i, exec i s = .fault f

/-- Outside the state that triggers it, an engine operation or a micro-operation faults: the model's choice (log 9) for what
R117 and R70..R74 do not enable. -/
def Obligations.OperationsFaultWhereNotTriggered : Prop :=
  ∀ s : State, s.broken = none →
    (∀ i, isEngineOp i = true → decode (.ecw s.ecw) ≠ .ok i → exec i s = .fault .notTriggered) ∧
    (∀ i, (s.eng ≠ engRun ∨ s.alg = 0 ∨ s.stepNo ≠ i) → exec (.sha1Sched i) s = .fault .notTriggered) ∧
    (∀ b, s.phase ≠ phaseAbsorb → exec (.padAppend b) s = .fault .notTriggered) ∧
    (s.eng = engRun → exec .dispatch s = .fault .notTriggered) ∧
    (s.eng = engRun ∨ s.alg = 1 → exec .md5Load s = .fault .notTriggered) ∧
    (s.eng = engRun ∨ s.alg = 0 → exec .sha1Load s = .fault .notTriggered) ∧
    (s.phase ≠ phaseAbsorb ∨ 56 ≤ s.fill.toNat → exec .padFinishOne s = .fault .notTriggered) ∧
    (s.phase ≠ phaseAbsorb ∨ s.fill.toNat ≤ 55 → exec .padFinishTwo s = .fault .notTriggered) ∧
    (s.eng ≠ engChain ∨ s.fseq = false → exec .padLenblock s = .fault .notTriggered)

/-- R16: HS is written only by INIT_MD5 and INIT_SHA1, MD5_CHAIN, SHA1_CHAIN (and reset, which is no instruction). -/
def Obligations.StateBankWrittenOnlyByInitAndChain : Prop :=
  ∀ (i : Instr) (s t : State), exec i s = .next t → t.hs ≠ s.hs →
    isInit i = true ∨ (∃ j, i = .md5Chain j) ∨ (∃ j, i = .sha1Chain j)

/-- R163: FILL, PHASE, ALG, L and ERR change only through host writes and reset: no engine operation and no read changes
them, nor ERRCODE. -/
def Obligations.EngineAndReadsKeepTheSession : Prop :=
  ∀ (i : Instr) (s t : State), isEngineOp i = true ∨ isReadOp i = true → exec i s = .next t →
    t.fill = s.fill ∧ t.phase = s.phase ∧ t.alg = s.alg ∧ t.len = s.len ∧ t.err = s.err ∧ t.errcode = s.errcode

/-- R163: BUSY = 0 stays 0 until the host's next write. -/
def Obligations.IdleUntilTheNextWrite : Prop :=
  ∀ s t : State, s.eng = engIdle → (s.hostq = [] ∨ s.readPending = true) → step s = .next t → t.eng = engIdle

/-- R161: once STATUS.DONE = 1, HS and DONE stay until the next INIT or reset. -/
def Obligations.DoneDigestIsStable : Prop :=
  ∀ s t : State, s.done = true → s.noResetNow →
    (∀ tw rest, s.hostq = tw :: rest → isInit (decodeTw tw) = false) → step s = .next t →
    t.hs = s.hs ∧ t.done = true

/-- R139, R146: while ERR = 1, no instruction but CLEAR_ERR changes ERR or ERRCODE: the first cause is kept. -/
def Obligations.FirstErrorIsKept : Prop :=
  ∀ (i : Instr) (s t : State), s.err = true → i ≠ .clearErr → exec i s = .next t →
    t.err = true ∧ t.errcode = s.errcode

/-- R35, R157, U1..U4: what the spec leaves unspecified is never observable. Two states that differ only in it answer
every step alike and go to states that again differ only in it; the values of logs 1, 2 and 3 can play no part. -/
def Obligations.UnspecifiedStateIsNeverObservable : Prop :=
  ∀ s t : State, SameVisible s t → SameOutcome (step s) (step t)

/-! ## Commands and errors -/

/-- R120: NOP, the word {1, 0, 0}, has no effect on any register; while ENG is not IDLE it waits. -/
def Obligations.NopHasNoEffect : Prop :=
  encode .nop = some (.tw (mkTw 1 0 0)) ∧
    ∀ s : State, s.broken = none →
      (s.eng = engIdle → ∃ r, exec .nop s = .next { s with resp := r }) ∧
      (s.eng ≠ engIdle → exec .nop s = .next { s with hostq := mkTw 1 0 0 :: s.hostq })

/-- R121, R122: INIT_MD5 and INIT_SHA1, in every phase; ERR, ERRCODE and BUF are unchanged. -/
def Obligations.InitOpensASession : Prop :=
  encode .initMd5 = some (.tw (mkTw 1 0 1)) ∧ encode .initSha1 = some (.tw (mkTw 1 0 2)) ∧
  ∀ s : State, s.broken = none → s.eng = engIdle →
    (∃ r, exec .initMd5 s = .next { s with
      hs := #v[0x67452301, 0xEFCDAB89, 0x98BADCFE, 0x10325476, 0x00000000]
      alg := 0, len := 0, fill := 0, fseq := false, phase := phaseAbsorb, resp := r }) ∧
    (∃ r, exec .initSha1 s = .next { s with
      hs := #v[0x67452301, 0xEFCDAB89, 0x98BADCFE, 0x10325476, 0xC3D2E1F0]
      alg := 1, len := 0, fill := 0, fseq := false, phase := phaseAbsorb, resp := r })

/-- R123: FINISH in a session is PAD_FINISH_ONE or PAD_FINISH_TWO by FILL, then PHASE <- DONE. -/
def Obligations.FinishClosesTheSession : Prop :=
  ∀ s : State, s.broken = none → s.eng = engIdle → s.phase = phaseAbsorb →
    (s.fill.toNat ≤ 55 →
      ∃ u r, exec .padFinishOne s = .next u ∧ exec .finish s = .next { u with phase := phaseDone, resp := r }) ∧
    (56 ≤ s.fill.toNat → s.fill.toNat ≤ 63 →
      ∃ u r, exec .padFinishTwo s = .next u ∧ exec .finish s = .next { u with phase := phaseDone, resp := r })

/-- R124: CLEAR_ERR, the word {1, 0, 4}, in every phase. -/
def Obligations.ClearErrClearsTheError : Prop :=
  encode .clearErr = some (.tw (mkTw 1 0 4)) ∧
  ∀ s : State, s.broken = none → s.eng = engIdle →
    ∃ r, exec .clearErr s = .next { s with err := false, errcode := 0, resp := r }

/-- R125, R128: an illegal command (0x11 too, whose OP names INIT_MD5) and a write to a read-only or unmapped slot decode
as such, record their code, the first error kept (R139), and change nothing else. -/
def Obligations.RejectedWritesRecordTheirError : Prop :=
  (∀ v, illegalCommand v = true →
    encode (.cmdIllegal v) = some (.tw (mkTw 1 0 v)) ∧ decode (.tw (mkTw 1 0 v)) = .ok (.cmdIllegal v)) ∧
  (∀ v : Word, illegalCommand v = true ↔ v.extractLsb' 4 28 ≠ 0 ∨ 5 ≤ (v.extractLsb' 0 4).toNat) ∧
  decode (.tw (mkTw 1 0 0x11)) = .ok (.cmdIllegal 0x11) ∧
  (∀ slot v, badWriteSlot slot = true →
    encode (.wrBad slot v) = some (.tw (mkTw 1 slot v)) ∧ decode (.tw (mkTw 1 slot v)) = .ok (.wrBad slot v)) ∧
  (∀ slot, badWriteSlot slot = true ↔ slot = 1 ∨ 4 ≤ slot.toNat) ∧
  ∀ (s : State) (v : Word) (slot : Slot), s.broken = none → s.eng = engIdle →
    (∃ r, exec (.cmdIllegal v) s = .next { s with
      err := true, errcode := if s.err then s.errcode else 1, resp := r }) ∧
    (∃ r, exec (.wrBad slot v) s = .next { s with
      err := true, errcode := if s.err then s.errcode else 3, resp := r })

/-- R142: data or FINISH outside ABSORB records NO_SESSION, the first error kept, and changes nothing else. -/
def Obligations.DataOutsideASessionIsRejected : Prop :=
  ∀ (s : State) (v : Word), s.broken = none → s.eng = engIdle → s.phase ≠ phaseAbsorb →
    (∃ r, exec (.dataB v) s = .next { s with err := true, errcode := if s.err then s.errcode else 2, resp := r }) ∧
    (∃ r, exec (.dataW v) s = .next { s with err := true, errcode := if s.err then s.errcode else 2, resp := r }) ∧
    (∃ r, exec .finish s = .next { s with err := true, errcode := if s.err then s.errcode else 2, resp := r })

/-- A performed write returns nothing: `resp` is none after it (R135; the field is the model's, log 7). -/
def Obligations.PerformedWriteReturnsNothing : Prop :=
  ∀ (i : Instr) (tw : Tw) (s t : State), encode i = some (.tw tw) → isRead tw = false → s.eng = engIdle →
    exec i s = .next t → t.resp = none

/-! ## Data writes -/

/-- R126: DATA_B, the word {1, 2, v}, in a session is PAD_APPEND of v[7:0], and BUSY becomes 1 exactly when that byte fills
the block; outside a session it records NO_SESSION. -/
def Obligations.DataBAppendsItsLowByte : Prop :=
  (∀ v, encode (.dataB v) = some (.tw (mkTw 1 2 v))) ∧
  ∀ (s : State) (v : Word), s.broken = none → s.eng = engIdle →
    (s.phase = phaseAbsorb → s.fill.toNat ≤ 63 →
      ∃ u r, exec (.padAppend (v.extractLsb' 0 8)) s = .next u ∧ exec (.dataB v) s = .next { u with resp := r } ∧
        (u.eng = engRun ↔ s.fill.toNat = 63) ∧ (u.statusWord.extractLsb' 0 1 = 1 ↔ s.fill.toNat = 63)) ∧
    (s.phase ≠ phaseAbsorb →
      ∃ r, exec (.dataB v) s = .next { s with err := true, errcode := if s.err then s.errcode else 2, resp := r })

/-- R127: DATA_W, the word {1, 3, v}, in a session is PAD_APPEND of its four bytes, lowest first, all in one transition; a
block that it fills is dispatched and the rest goes to the next block. Outside a session it records NO_SESSION. -/
def Obligations.DataWAppendsFourBytesLowestFirst : Prop :=
  (∀ v, encode (.dataW v) = some (.tw (mkTw 1 3 v))) ∧
  ∀ (s : State) (v : Word), s.broken = none → s.eng = engIdle →
    (s.phase = phaseAbsorb → s.fill.toNat ≤ 63 → ∃ u1 u2 u3 u4 r,
      exec (.padAppend (v.extractLsb' 0 8)) s = .next u1 ∧ exec (.padAppend (v.extractLsb' 8 8)) u1 = .next u2 ∧
      exec (.padAppend (v.extractLsb' 16 8)) u2 = .next u3 ∧ exec (.padAppend (v.extractLsb' 24 8)) u3 = .next u4 ∧
      exec (.dataW v) s = .next { u4 with resp := r } ∧
      u4.len = s.len + 4 ∧ u4.fill.toNat = (s.fill.toNat + 4) % 64 ∧
      (u4.eng = engRun ↔ 60 ≤ s.fill.toNat)) ∧
    (s.phase ≠ phaseAbsorb →
      ∃ r, exec (.dataW v) s = .next { s with err := true, errcode := if s.err then s.errcode else 2, resp := r })

/-! ## The padding buffer builder -/

/-- R70: PAD_APPEND stores its byte at BUF[FILL] and advances FILL and L; the byte that fills the block dispatches it and
resets FILL. -/
def Obligations.PadAppendStoresOneByte : Prop :=
  ∀ (s : State) (b : Byte), s.broken = none → s.phase = phaseAbsorb → s.fill.toNat ≤ 63 →
    ∃ t, exec (.padAppend b) s = .next t ∧
      (∀ a, t.buf.read a = if a = s.fill.toNat then b else s.buf.read a) ∧
      (s.fill.toNat < 63 → t = { s with buf := t.buf, fill := s.fill + 1, len := s.len + 1 }) ∧
      (s.fill.toNat = 63 → HandedOver s t ∧
        t = { s with
          buf := t.buf, fill := 0, len := s.len + 1, mw := t.mw, wk := t.wk, stepNo := 0, eng := engRun })

/-- A byte past BUF is not stored (R36: those offsets do not exist): with FILL 64 or more, which no run reaches (R23),
what would store one faults. The model's choice (log 10). -/
def Obligations.BytesPastTheBufferFault : Prop :=
  ∀ s : State, s.broken = none → s.phase = phaseAbsorb → 64 ≤ s.fill.toNat →
    (∀ b, exec (.padAppend b) s = .fault .bufferOffset) ∧ exec .padFinishTwo s = .fault .bufferOffset ∧
    (s.eng = engIdle → ∀ v, exec (.dataB v) s = .fault .bufferOffset ∧ exec (.dataW v) s = .fault .bufferOffset ∧
      exec .finish s = .fault .bufferOffset)

/-- R71: dispatch() latches BUF with the LOAD of the selected engine and sets ENG to RUN; nothing else changes. -/
def Obligations.DispatchHandsOverTheBlock : Prop :=
  ∀ s : State, s.broken = none → s.eng ≠ engRun →
    ∃ t, exec .dispatch s = .next t ∧ HandedOver s t ∧
      t = { s with mw := t.mw, wk := t.wk, stepNo := 0, eng := engRun }

/-- R79 with R38, R99 with R39: MD5_LOAD reads the block little-endian and leaves WK[4]; SHA1_LOAD reads it big-endian. -/
def Obligations.LoadsLatchTheBlock : Prop :=
  ∀ s : State, s.broken = none → s.eng ≠ engRun →
    (s.alg = 0 → ∃ t, exec .md5Load s = .next t ∧
      (∀ j : Fin 16, t.mw[j] = le32 (s.buf.read (4 * j)) (s.buf.read (4 * j + 1)) (s.buf.read (4 * j + 2))
        (s.buf.read (4 * j + 3))) ∧
      t = { s with mw := t.mw, wk := #v[s.hs[0], s.hs[1], s.hs[2], s.hs[3], s.wk[4]], stepNo := 0 }) ∧
    (s.alg = 1 → ∃ t, exec .sha1Load s = .next t ∧
      (∀ j : Fin 16, t.mw[j] = be32 (s.buf.read (4 * j)) (s.buf.read (4 * j + 1)) (s.buf.read (4 * j + 2))
        (s.buf.read (4 * j + 3))) ∧
      t = { s with mw := t.mw, wk := s.hs, stepNo := 0 })

/-- R72: PAD_FINISH_ONE. -/
def Obligations.PadFinishOneSendsTheFinalBlock : Prop :=
  ∀ s : State, s.broken = none → s.phase = phaseAbsorb → s.fill.toNat ≤ 55 →
    ∃ t, exec .padFinishOne s = .next t ∧ HandedOver s t ∧
      (∀ a, t.buf.read a =
        if a < s.fill.toNat then s.buf.read a else if a = s.fill.toNat then 0x80 else if a < 56 then 0
        else if a < 64 then (if s.alg = 0 then le64bytes (8 * s.len) else be64bytes (8 * s.len)).getD (a - 56) 0
        else s.buf.read a) ∧
      t = { s with
        buf := t.buf, mw := t.mw, wk := t.wk, stepNo := 0, eng := engRun, fseq := false, fill := 0 }

/-- R73: PAD_FINISH_TWO. -/
def Obligations.PadFinishTwoSendsTheTail : Prop :=
  ∀ s : State, s.broken = none → s.phase = phaseAbsorb → 56 ≤ s.fill.toNat → s.fill.toNat ≤ 63 →
    ∃ t, exec .padFinishTwo s = .next t ∧ HandedOver s t ∧
      (∀ a, t.buf.read a =
        if a < s.fill.toNat then s.buf.read a else if a = s.fill.toNat then 0x80 else if a < 64 then 0
        else s.buf.read a) ∧
      t = { s with
        buf := t.buf, mw := t.mw, wk := t.wk, stepNo := 0, eng := engRun, fseq := true, fill := 0 }

/-- R74: PAD_LENBLOCK. -/
def Obligations.PadLenblockSendsTheLength : Prop :=
  ∀ s : State, s.broken = none → s.eng = engChain → s.fseq = true →
    ∃ t, exec .padLenblock s = .next t ∧ HandedOver s t ∧
      (∀ a, t.buf.read a =
        if a < 56 then 0
        else if a < 64 then (if s.alg = 0 then le64bytes (8 * s.len) else be64bytes (8 * s.len)).getD (a - 56) 0
        else s.buf.read a) ∧
      t = { s with buf := t.buf, mw := t.mw, wk := t.wk, stepNo := 0, eng := engRun, fseq := false }

/-- R67, of the padding function of R64. -/
def Obligations.PaddingProperties : Prop :=
  ∀ (alg : BitVec 1) (m : List Byte),
    (padMessage alg m).length % 64 = 0 ∧
    m.length + 9 ≤ (padMessage alg m).length ∧ (padMessage alg m).length ≤ m.length + 72 ∧
    (padMessage alg m).take m.length = m ∧
    (padMessage alg m).length = 64 * ((m.length + 8) / 64 + 1) ∧
    (padMessage 0 m).take ((padMessage 0 m).length - 8) = (padMessage 1 m).take ((padMessage 1 m).length - 8) ∧
    (padMessage 0 m).drop ((padMessage 0 m).length - 8) =
      ((padMessage 1 m).drop ((padMessage 1 m).length - 8)).reverse

/-- R65: the source's count of zero bits, for byte messages, and its two boundary values. -/
def Obligations.ZeroBitCount : Prop :=
  (∀ n, padZeroBits (8 * n) = 8 * zeroCount n + 7) ∧ (∀ n, padZeroBits n ≤ 511) ∧
    (∀ n, n % 512 = 447 → padZeroBits n = 0) ∧ (∀ n, n % 512 = 448 → padZeroBits n = 511) ∧
    (∀ n, n % 64 = 56 → zeroCount n = 63 ∧ padZeroBits (8 * n) = 511) ∧
    (∀ n, n % 64 = 55 → zeroCount n = 0 ∧ padZeroBits (8 * n) = 7)

/-- R75 for one message byte: the builder keeps the message's tail, and the byte that fills a block hands over that block
of the padded message, whatever bytes still follow. -/
def Obligations.BuilderSendsTheMessageBlocks : Prop :=
  ∀ (m : List Byte) (b : Byte) (s : State), s.broken = none → HoldsTail m s →
    ∃ t, exec (.padAppend b) s = .next t ∧ HoldsTail (m ++ [b]) t ∧ t.alg = s.alg ∧
      ((m.length + 1) % 64 = 0 → t.eng = engRun ∧ t.stepNo = 0 ∧
        ∀ rest, t.mw = wordsOf s.alg (padBlock s.alg (m ++ [b] ++ rest) (m.length / 64))) ∧
      ((m.length + 1) % 64 ≠ 0 → t.eng = s.eng ∧ t.mw = s.mw)

/-- R75 for FINISH: it hands over the last block of the padded message, or the last but one with FSEQ = 1, and then
PAD_LENBLOCK hands over the last. -/
def Obligations.BuilderSendsTheFinalBlocks : Prop :=
  ∀ (m : List Byte) (s : State), s.broken = none → s.eng = engIdle → HoldsTail m s →
    ∃ t, exec .finish s = .next t ∧ t.eng = engRun ∧ t.stepNo = 0 ∧ t.alg = s.alg ∧ t.len = s.len ∧
      t.phase = phaseDone ∧
      (m.length % 64 ≤ 55 → t.fseq = false ∧
        t.mw = wordsOf s.alg (padBlock s.alg m (blockCount m.length - 1))) ∧
      (56 ≤ m.length % 64 → t.fseq = true ∧ t.mw = wordsOf s.alg (padBlock s.alg m (blockCount m.length - 2)) ∧
        ∀ u v : State, u.len = t.len → u.alg = t.alg → exec .padLenblock u = .next v →
          v.mw = wordsOf s.alg (padBlock s.alg m (blockCount m.length - 1)))

/-! ## Reads -/

/-- R129, R28: the fields of STATUS; the read changes nothing else, whatever ENG is. -/
def Obligations.StatusReadGivesTheFields : Prop :=
  ∀ (s : State) (v : Word), s.broken = none →
    ∃ w : Word, exec (.rdStatus v) s = .next { s with resp := some w } ∧
      (w.extractLsb' 0 1 = 1 ↔ s.eng ≠ engIdle) ∧
      (w.extractLsb' 1 1 = 1 ↔ s.phase = phaseDone ∧ s.eng = engIdle) ∧
      (w.extractLsb' 2 1 = 1 ↔ s.err = true) ∧ w.extractLsb' 3 1 = 0 ∧
      w.extractLsb' 4 4 = s.errcode ∧ w.extractLsb' 8 1 = s.alg ∧ w.extractLsb' 9 3 = 0 ∧
      w.extractLsb' 12 2 = s.phase ∧ w.extractLsb' 14 2 = 0 ∧ w.extractLsb' 16 7 = s.fill ∧ w.extractLsb' 23 9 = 0

/-- R130, R132, and HS for the digest reads of R131: the words and the answers of the other reads; each changes nothing
else, whatever ENG is. -/
def Obligations.ReadsAnswerAtOnce : Prop :=
  (∀ v, encode (.rdLenLo v) = some (.tw (mkTw 0 4 v)) ∧ encode (.rdLenHi v) = some (.tw (mkTw 0 5 v))) ∧
  (∀ slot v, zeroReadSlot slot = true → encode (.rdZero slot v) = some (.tw (mkTw 0 slot v))) ∧
  ∀ (s : State) (v : Word) (slot : Slot), s.broken = none →
    exec (.rdLenLo v) s = .next { s with resp := some (s.len.extractLsb' 0 32) } ∧
    exec (.rdLenHi v) s = .next { s with resp := some (s.len.extractLsb' 32 32) } ∧
    exec (.rdDigest0 v) s = .next { s with resp := some s.hs[0] } ∧
    exec (.rdDigest1 v) s = .next { s with resp := some s.hs[1] } ∧
    exec (.rdDigest2 v) s = .next { s with resp := some s.hs[2] } ∧
    exec (.rdDigest3 v) s = .next { s with resp := some s.hs[3] } ∧
    exec (.rdDigest4 v) s = .next { s with resp := some s.hs[4] } ∧
    exec (.rdZero slot v) s = .next { s with resp := some 0 }

/-! ## The MD5 engine -/

/-- R88, R93: each MD5 step at index i = STEP, with the round function of its round; after step 63 the engine chains.
HS, BUF, MW and WK[4] are unchanged. -/
def Obligations.Md5StepsTransformTheWorkingRegisters : Prop :=
  ∀ (s : State) (i : BitVec 7), s.broken = none → s.eng = engRun → s.alg = 0 → s.stepNo = i →
    (i.toNat < 16 → exec (.md5StepF i) s = .next { s with
      wk := #v[s.wk[3], s.wk[1] + rotl32 (s.wk[0] + md5F s.wk[1] s.wk[2] s.wk[3] + s.mw[md5Index i.toNat]
        + md5Constant i.toNat) (md5Shift i.toNat), s.wk[1], s.wk[2], s.wk[4]]
      stepNo := i + 1 }) ∧
    (16 ≤ i.toNat → i.toNat < 32 → exec (.md5StepG i) s = .next { s with
      wk := #v[s.wk[3], s.wk[1] + rotl32 (s.wk[0] + md5G s.wk[1] s.wk[2] s.wk[3] + s.mw[md5Index i.toNat]
        + md5Constant i.toNat) (md5Shift i.toNat), s.wk[1], s.wk[2], s.wk[4]]
      stepNo := i + 1 }) ∧
    (32 ≤ i.toNat → i.toNat < 48 → exec (.md5StepH i) s = .next { s with
      wk := #v[s.wk[3], s.wk[1] + rotl32 (s.wk[0] + md5H s.wk[1] s.wk[2] s.wk[3] + s.mw[md5Index i.toNat]
        + md5Constant i.toNat) (md5Shift i.toNat), s.wk[1], s.wk[2], s.wk[4]]
      stepNo := i + 1 }) ∧
    (48 ≤ i.toNat → i.toNat < 64 → exec (.md5StepI i) s = .next { s with
      wk := #v[s.wk[3], s.wk[1] + rotl32 (s.wk[0] + md5I s.wk[1] s.wk[2] s.wk[3] + s.mw[md5Index i.toNat]
        + md5Constant i.toNat) (md5Shift i.toNat), s.wk[1], s.wk[2], s.wk[4]]
      stepNo := i + 1
      eng := if i.toNat = 63 then engChain else engRun })

/-- R94, R118: MD5_CHAIN adds WK[0..3] into HS[0..3] and leaves HS[4]; with FSEQ = 0 the engine becomes idle, with
FSEQ = 1 the length block is sent in the same transition. -/
def Obligations.Md5ChainAddsAndCompletes : Prop :=
  ∀ (s : State) (i : BitVec 7) (h : Vector Word 5), s.broken = none → s.eng = engChain → s.alg = 0 → s.stepNo = i →
    h = #v[s.hs[0] + s.wk[0], s.hs[1] + s.wk[1], s.hs[2] + s.wk[2], s.hs[3] + s.wk[3], s.hs[4]] →
    (s.fseq = false → exec (.md5Chain i) s = .next { s with hs := h, eng := engIdle }) ∧
    (s.fseq = true → ∃ t, exec (.md5Chain i) s = .next t ∧ HandedOver { s with hs := h } t ∧
      (∀ a, t.buf.read a = if a < 56 then 0 else if a < 64 then (le64bytes (8 * s.len)).getD (a - 56) 0
        else s.buf.read a) ∧
      t = { s with
        hs := h, buf := t.buf, mw := t.mw, wk := t.wk, stepNo := 0, eng := engRun, fseq := false })

/-- R84, R85, R87: the message indexes, rotation amounts and additive constants of the 64 steps, the FSEL of each step and
the operation it selects, with its function. Each round reads each word exactly once. -/
def Obligations.Md5ScheduleAndShifts : Prop :=
  (List.range 64).map md5Constant =
    [0xD76AA478, 0xE8C7B756, 0x242070DB, 0xC1BDCEEE, 0xF57C0FAF, 0x4787C62A, 0xA8304613, 0xFD469501,
     0x698098D8, 0x8B44F7AF, 0xFFFF5BB1, 0x895CD7BE, 0x6B901122, 0xFD987193, 0xA679438E, 0x49B40821] ++
    [0xF61E2562, 0xC040B340, 0x265E5A51, 0xE9B6C7AA, 0xD62F105D, 0x02441453, 0xD8A1E681, 0xE7D3FBC8,
     0x21E1CDE6, 0xC33707D6, 0xF4D50D87, 0x455A14ED, 0xA9E3E905, 0xFCEFA3F8, 0x676F02D9, 0x8D2A4C8A] ++
    [0xFFFA3942, 0x8771F681, 0x6D9D6122, 0xFDE5380C, 0xA4BEEA44, 0x4BDECFA9, 0xF6BB4B60, 0xBEBFBC70,
     0x289B7EC6, 0xEAA127FA, 0xD4EF3085, 0x04881D05, 0xD9D4D039, 0xE6DB99E5, 0x1FA27CF8, 0xC4AC5665] ++
    [0xF4292244, 0x432AFF97, 0xAB9423A7, 0xFC93A039, 0x655B59C3, 0x8F0CCC92, 0xFFEFF47D, 0x85845DD1,
     0x6FA87E4F, 0xFE2CE6E0, 0xA3014314, 0x4E0811A1, 0xF7537E82, 0xBD3AF235, 0x2AD7D2BB, 0xEB86D391] ∧
  (List.range 16).map (fun i => (md5Index i).val) = [0, 1, 2, 3, 4, 5, 6, 7, 8, 9, 10, 11, 12, 13, 14, 15] ∧
  (List.range 16).map (fun i => (md5Index (16 + i)).val) = [1, 6, 11, 0, 5, 10, 15, 4, 9, 14, 3, 8, 13, 2, 7, 12] ∧
  (List.range 16).map (fun i => (md5Index (32 + i)).val) = [5, 8, 11, 14, 1, 4, 7, 10, 13, 0, 3, 6, 9, 12, 15, 2] ∧
  (List.range 16).map (fun i => (md5Index (48 + i)).val) = [0, 7, 14, 5, 12, 3, 10, 1, 8, 15, 6, 13, 4, 11, 2, 9] ∧
  (∀ i < 16, md5Shift i = [7, 12, 17, 22].getD (i % 4) 0 ∧ md5Shift (16 + i) = [5, 9, 14, 20].getD (i % 4) 0 ∧
    md5Shift (32 + i) = [4, 11, 16, 23].getD (i % 4) 0 ∧ md5Shift (48 + i) = [6, 10, 15, 21].getD (i % 4) 0) ∧
  (∀ i < 64, md5Shift i ≠ 0 ∧ md5Shift i ≠ 32) ∧
  (∀ i < 16, fselOf 0 (BitVec.ofNat 7 i) = 0b000 ∧ fselOf 0 (BitVec.ofNat 7 (16 + i)) = 0b001 ∧
    fselOf 0 (BitVec.ofNat 7 (32 + i)) = 0b010 ∧ fselOf 0 (BitVec.ofNat 7 (48 + i)) = 0b011) ∧
  (∀ i : BitVec 7, stepOfFsel 0b000 i = .md5StepF i ∧ stepOfFsel 0b001 i = .md5StepG i ∧
    stepOfFsel 0b010 i = .md5StepH i ∧ stepOfFsel 0b011 i = .md5StepI i) ∧
  (∀ i < 16, md5Function i = md5F ∧ md5Function (16 + i) = md5G ∧ md5Function (32 + i) = md5H ∧
    md5Function (48 + i) = md5I) ∧
  (∀ r < 4, ∀ j : Fin 16, ((List.range 16).filter fun i => md5Index (16 * r + i) = j).length = 1)

/-- R119 with R95: a block dispatched with ALG = 0 completes after exactly 65 engine transitions, under every schedule
without a reset: every other step until then performs one of `reads`, which the host reads meanwhile. HS, which no step
before the last changes, is then the MD5 compression function of the old HS and the block. With FSEQ = 0 the engine is
idle; with FSEQ = 1 the length block is handed over, to be compressed over that HS (R118). That the engine moves where the
schedule's list ends is one of R119's fair schedules and the model's reading (log 5). -/
def Obligations.Md5BlockCompresses : Prop :=
  ∀ s u : State, exec .dispatch s = .next u → s.alg = 0 → noReset s.sched = true →
    ∃ (reads rest : List Tw) (t : State), u.hostq = reads ++ rest ∧ (∀ tw ∈ reads, isRead tw = true) ∧
      (∀ k < 65 + reads.length, ∃ v, Sys2Proof.core.run k u = .next v ∧ v.eng ≠ engIdle ∧ v.hs = s.hs) ∧
      Sys2Proof.core.run (65 + reads.length) u = .next t ∧ t.hs = md5Compress s.hs s.bufBlock ∧
      (s.fseq = false → t = { u with
        hs := t.hs, wk := t.wk, stepNo := 64, eng := engIdle
        hostq := rest, sched := u.sched.drop (65 + reads.length), resp := t.resp }) ∧
      (s.fseq = true → HandedOver { u with hs := t.hs } t ∧
        t.bufBlock = List.replicate 56 0 ++ le64bytes (8 * s.len) ∧
        t = { u with
          hs := t.hs, buf := t.buf, mw := t.mw, wk := t.wk, stepNo := 0, eng := engRun, fseq := false
          hostq := rest, sched := u.sched.drop (65 + reads.length), resp := t.resp })

/-! ## The SHA-1 engine -/

/-- R106, R101, R111: each SHA-1 step at index t = STEP, with its band's function and constant and the schedule word Wt;
from t = 16 on Wt replaces MW[t mod 16]; after step 79 the engine chains. HS and BUF are unchanged. -/
def Obligations.Sha1StepsTransformTheWorkingRegisters : Prop :=
  ∀ (s : State) (t : BitVec 7) (wt : Word) (mw : Vector Word 16),
    s.broken = none → s.eng = engRun → s.alg = 1 → s.stepNo = t →
    (t.toNat ≤ 15 → wt = s.mw[Fin.ofNat 16 t.toNat] ∧ mw = s.mw) →
    (16 ≤ t.toNat → wt = rotl32 (s.mw[Fin.ofNat 16 (t.toNat - 3)] ^^^ s.mw[Fin.ofNat 16 (t.toNat - 8)]
      ^^^ s.mw[Fin.ofNat 16 (t.toNat - 14)] ^^^ s.mw[Fin.ofNat 16 t.toNat]) 1 ∧
      mw = s.mw.set (Fin.ofNat 16 t.toNat) wt) →
    (t.toNat < 20 → exec (.sha1StepCh t) s = .next { s with
      mw := mw
      wk := #v[rotl32 s.wk[0] 5 + sha1Ch s.wk[1] s.wk[2] s.wk[3] + s.wk[4] + wt + 0x5A827999, s.wk[0],
        rotl32 s.wk[1] 30, s.wk[2], s.wk[3]]
      stepNo := t + 1 }) ∧
    (20 ≤ t.toNat → t.toNat < 40 → exec (.sha1StepPar1 t) s = .next { s with
      mw := mw
      wk := #v[rotl32 s.wk[0] 5 + sha1Parity s.wk[1] s.wk[2] s.wk[3] + s.wk[4] + wt + 0x6ED9EBA1, s.wk[0],
        rotl32 s.wk[1] 30, s.wk[2], s.wk[3]]
      stepNo := t + 1 }) ∧
    (40 ≤ t.toNat → t.toNat < 60 → exec (.sha1StepMaj t) s = .next { s with
      mw := mw
      wk := #v[rotl32 s.wk[0] 5 + sha1Maj s.wk[1] s.wk[2] s.wk[3] + s.wk[4] + wt + 0x8F1BBCDC, s.wk[0],
        rotl32 s.wk[1] 30, s.wk[2], s.wk[3]]
      stepNo := t + 1 }) ∧
    (60 ≤ t.toNat → t.toNat < 80 → exec (.sha1StepPar2 t) s = .next { s with
      mw := mw
      wk := #v[rotl32 s.wk[0] 5 + sha1Parity s.wk[1] s.wk[2] s.wk[3] + s.wk[4] + wt + 0xCA62C1D6, s.wk[0],
        rotl32 s.wk[1] 30, s.wk[2], s.wk[3]]
      stepNo := t + 1
      eng := if t.toNat = 79 then engChain else engRun })

/-- The model's choice (log 11): SHA1_SCHED as an operation by itself, which R58 says is no separate transition, is R101's
part of the SHA-1 step t. It writes MW[t mod 16] from t = 16 on and nothing else, and nothing at all up to step 15. -/
def Obligations.Sha1SchedUpdatesTheWindow : Prop :=
  ∀ (s : State) (t : BitVec 7), s.broken = none → s.eng = engRun → s.alg = 1 → s.stepNo = t →
    (t.toNat ≤ 15 → exec (.sha1Sched t) s = .next s) ∧
    (16 ≤ t.toNat → exec (.sha1Sched t) s = .next { s with
      mw := s.mw.set (Fin.ofNat 16 t.toNat) (rotl32 (s.mw[Fin.ofNat 16 (t.toNat - 3)]
        ^^^ s.mw[Fin.ofNat 16 (t.toNat - 8)] ^^^ s.mw[Fin.ofNat 16 (t.toNat - 14)] ^^^ s.mw[Fin.ofNat 16 t.toNat]) 1) })

/-- R112, R118: SHA1_CHAIN adds WK[0..4] into HS[0..4]; the completion rule as for MD5. -/
def Obligations.Sha1ChainAddsAndCompletes : Prop :=
  ∀ (s : State) (i : BitVec 7) (h : Vector Word 5), s.broken = none → s.eng = engChain → s.alg = 1 → s.stepNo = i →
    h = #v[s.hs[0] + s.wk[0], s.hs[1] + s.wk[1], s.hs[2] + s.wk[2], s.hs[3] + s.wk[3], s.hs[4] + s.wk[4]] →
    (s.fseq = false → exec (.sha1Chain i) s = .next { s with hs := h, eng := engIdle }) ∧
    (s.fseq = true → ∃ t, exec (.sha1Chain i) s = .next t ∧ HandedOver { s with hs := h } t ∧
      (∀ a, t.buf.read a = if a < 56 then 0 else if a < 64 then (be64bytes (8 * s.len)).getD (a - 56) 0
        else s.buf.read a) ∧
      t = { s with
        hs := h, buf := t.buf, mw := t.mw, wk := t.wk, stepNo := 0, eng := engRun, fseq := false })

/-- R100: the message schedule is 80 words, the block's own and then the recurrence. -/
def Obligations.ScheduleRecurrence : Prop :=
  ∀ x : Vector Word 16, (sha1Schedule x).length = 80 ∧
    (∀ t : Fin 16, (sha1Schedule x).getD t 0 = x[t]) ∧
    (∀ t, 16 ≤ t → t ≤ 79 → (sha1Schedule x).getD t 0 =
      rotl32 ((sha1Schedule x).getD (t - 3) 0 ^^^ (sha1Schedule x).getD (t - 8) 0 ^^^ (sha1Schedule x).getD (t - 14) 0
        ^^^ (sha1Schedule x).getD (t - 16) 0) 1)

/-- R101: at the start of step t from 16 on, the 16-word window holds W[t-16..t-1] at their places modulo 16, and the Wt
it produces at any step is W[t] of R100. -/
def Obligations.WindowHoldsTheSchedule : Prop :=
  ∀ (x : Vector Word 16) (t : Nat), t ≤ 79 →
    (16 ≤ t → ∀ j, 1 ≤ j → j ≤ 16 → (windowAfter x t)[Fin.ofNat 16 (t - j)] = (sha1Schedule x).getD (t - j) 0) ∧
    sha1Word (windowAfter x t) t = (sha1Schedule x).getD t 0

/-- R102, R103, R104: the three band functions, the forms with ^ in place of | (the two halves of Ch never share a 1), and
that Ch is F and Parity is H. R80..R83: the four MD5 round functions. With the vectors of the seven rules. -/
def Obligations.BandFunctionForms : Prop :=
  ∀ x y z : Word,
    sha1Ch x y z = (x &&& y) ||| (~~~x &&& z) ∧ sha1Ch x y z = (x &&& y) ^^^ (~~~x &&& z) ∧
    (x &&& y) &&& (~~~x &&& z) = 0 ∧ sha1Ch x y z = md5F x y z ∧
    (∀ i, (sha1Ch x y z).getLsbD i = if x.getLsbD i then y.getLsbD i else z.getLsbD i) ∧
    sha1Parity x y z = x ^^^ y ^^^ z ∧ sha1Parity x y z = md5H x y z ∧
    sha1Maj x y z = (x &&& y) ||| (x &&& z) ||| (y &&& z) ∧
    sha1Maj x y z = (x &&& y) ^^^ (x &&& z) ^^^ (y &&& z) ∧
    (∀ i, (sha1Maj x y z).getLsbD i =
      decide (2 ≤ (x.getLsbD i).toNat + (y.getLsbD i).toNat + (z.getLsbD i).toNat)) ∧
    md5F x y z = (x &&& y) ||| (~~~x &&& z) ∧ md5G x y z = (x &&& z) ||| (y &&& ~~~z) ∧ md5H x y z = x ^^^ y ^^^ z ∧
    md5I x y z = y ^^^ (x ||| ~~~z) ∧
    (∀ i, (md5F x y z).getLsbD i = if x.getLsbD i then y.getLsbD i else z.getLsbD i) ∧
    (∀ i, (md5G x y z).getLsbD i = if z.getLsbD i then x.getLsbD i else y.getLsbD i) ∧
    md5F 0xAAAAAAAA 0xCCCCCCCC 0xF0F0F0F0 = 0xD8D8D8D8 ∧ md5G 0xAAAAAAAA 0xCCCCCCCC 0xF0F0F0F0 = 0xACACACAC ∧
    md5H 0xAAAAAAAA 0xCCCCCCCC 0xF0F0F0F0 = 0x96969696 ∧ md5I 0 0 0 = 0xFFFFFFFF ∧
    md5I 0xAAAAAAAA 0xCCCCCCCC 0xF0F0F0F0 = 0x63636363 ∧
    sha1Ch 0xAAAAAAAA 0xCCCCCCCC 0xF0F0F0F0 = 0xD8D8D8D8 ∧ sha1Parity 0xAAAAAAAA 0xCCCCCCCC 0xF0F0F0F0 = 0x96969696 ∧
    sha1Maj 0xAAAAAAAA 0xCCCCCCCC 0xF0F0F0F0 = 0xE8E8E8E8

/-- R119 with R113: a block dispatched with ALG = 1 completes after exactly 81 engine transitions, under every schedule
without a reset: every other step until then performs one of `reads`, which the host reads meanwhile. HS, which no step
before the last changes, is then the SHA-1 compression function of the old HS and the block. With FSEQ = 0 the engine is
idle; with FSEQ = 1 the length block is handed over, to be compressed over that HS (R118). That the engine moves where the
schedule's list ends is one of R119's fair schedules and the model's reading (log 5). -/
def Obligations.Sha1BlockCompresses : Prop :=
  ∀ s u : State, exec .dispatch s = .next u → s.alg = 1 → noReset s.sched = true →
    ∃ (reads rest : List Tw) (t : State), u.hostq = reads ++ rest ∧ (∀ tw ∈ reads, isRead tw = true) ∧
      (∀ k < 81 + reads.length, ∃ v, Sys2Proof.core.run k u = .next v ∧ v.eng ≠ engIdle ∧ v.hs = s.hs) ∧
      Sys2Proof.core.run (81 + reads.length) u = .next t ∧ t.hs = sha1Compress s.hs s.bufBlock ∧
      (s.fseq = false → t = { u with
        hs := t.hs, wk := t.wk, mw := t.mw, stepNo := 80, eng := engIdle
        hostq := rest, sched := u.sched.drop (81 + reads.length), resp := t.resp }) ∧
      (s.fseq = true → HandedOver { u with hs := t.hs } t ∧
        t.bufBlock = List.replicate 56 0 ++ be64bytes (8 * s.len) ∧
        t = { u with
          hs := t.hs, buf := t.buf, mw := t.mw, wk := t.wk, stepNo := 0, eng := engRun, fseq := false
          hostq := rest, sched := u.sched.drop (81 + reads.length), resp := t.resp })

/-! ## The whole computation -/

/-- R134 with R96 and R114: from any state of the invariant, INIT, any mix of data writes (and reads) and FINISH leave
DONE = 1 and the digest of the appended message in DIGEST, under every schedule without a reset (U13: the final digest is
independent of it). -/
def Obligations.SessionComputesTheDigest : Prop :=
  ∀ (s : State) (alg : BitVec 1) (body reads : List Tw), Inv s → noReset s.sched = true →
    s.hostq = asmWrite .cmd (if alg = 0 then 0x1 else 0x2) :: body ++ asmWrite .cmd 0x3 :: reads →
    (∀ tw ∈ body, isDataWrite tw = true ∨ isRead tw = true) → (∀ tw ∈ reads, isRead tw = true) →
    ∃ n t, Sys2Proof.core.run n s = .next t ∧ t.hostq = [] ∧ t.done = true ∧ t.alg = alg ∧
      t.hs = hashState alg (body.flatMap bytesOf) ∧
      (if alg = 0 then md5DigestBytes t.hs else sha1DigestBytes t.hs) = digestBytes alg (body.flatMap bytesOf)
end

