-- ==== Sys2Proof/Laws/Memory.lean ====
section
/-! SUPPORT. What one byte of BUF reads as after each memory operation, and that every operation keeps the canonical
form. -/

namespace Sys2Proof.Machine

/-! ## Reading after an operation -/

@[simp] theorem Memory.read_nil (x : Nat) : Memory.read [] x = Config.unwrittenByte := rfl

theorem Memory.read_cons (b x : Nat) (v : Byte) (m : Memory) :
    Memory.read ((b, v) :: m) x = if x = b then v else Memory.read m x := rfl

theorem Memory.read_absent (m : Memory) (x : Nat) (h : ∀ c ∈ m, c.1 ≠ x) : m.read x = Config.unwrittenByte := by
  induction m with
  | nil => rfl
  | cons c m ih =>
    rw [Memory.read_cons, if_neg (fun e => h c (by simp) e.symm), ih (fun d hd => h d (by simp [hd]))]

theorem Memory.mem_dropEntry (m : Memory) (a : Nat) : ∀ c ∈ m.dropEntry a, c.1 ≠ a := by
  intro c hc
  simpa using (List.mem_filter.mp hc).2

theorem Memory.read_dropEntry (m : Memory) (a x : Nat) :
    (m.dropEntry a).read x = if x = a then Config.unwrittenByte else m.read x := by
  by_cases hx : x = a
  · rw [if_pos hx, hx, Memory.read_absent _ _ (m.mem_dropEntry a)]
  · rw [if_neg hx]
    induction m with
    | nil => rfl
    | cons c m ih =>
      obtain ⟨b, v⟩ := c
      by_cases hb : b = a
      · have he : Memory.dropEntry ((b, v) :: m) a = Memory.dropEntry m a := by simp [Memory.dropEntry, hb]
        rw [he, ih, Memory.read_cons, if_neg (by omega)]
      · have he : Memory.dropEntry ((b, v) :: m) a = (b, v) :: Memory.dropEntry m a := by simp [Memory.dropEntry, hb]
        rw [he, Memory.read_cons, Memory.read_cons, ih]

theorem Memory.read_putEntry (m : Memory) (a x : Nat) (v : Byte) (h : ∀ c ∈ m, c.1 ≠ a) :
    (m.putEntry a v).read x = if x = a then v else m.read x := by
  induction m with
  | nil => rfl
  | cons c m ih =>
    obtain ⟨b, w⟩ := c
    have hb : b ≠ a := h (b, w) (by simp)
    unfold Memory.putEntry
    split
    · rw [Memory.read_cons]
    · rw [Memory.read_cons, Memory.read_cons, ih (fun d hd => h d (by simp [hd]))]
      by_cases hxb : x = b
      · simp [hxb, hb]
      · simp [hxb]

/-- A read after a write: the byte written at its offset, what stood there anywhere else. -/
theorem Memory.read_write (m : Memory) (a x : Nat) (v : Byte) :
    (m.write a v).read x = if x = a then v else m.read x := by
  unfold Memory.write
  split
  · rw [Memory.read_dropEntry, ‹v = _›]
  · rw [Memory.read_putEntry _ _ _ _ (m.mem_dropEntry a), Memory.read_dropEntry]
    split <;> rfl

/-- A read after a run of bytes is written at `a`. -/
theorem Memory.read_writeBytes (bytes : List Byte) (m : Memory) (a x : Nat) :
    (m.writeBytes a bytes).read x =
      if a ≤ x ∧ x < a + bytes.length then bytes.getD (x - a) 0 else m.read x := by
  induction bytes generalizing m a with
  | nil => rw [Memory.writeBytes, List.length_nil, if_neg (by omega)]
  | cons v vs ih =>
    rw [Memory.writeBytes, ih, Memory.read_write, List.length_cons]
    by_cases hx : x = a
    · subst hx
      rw [if_neg (by omega), if_pos rfl, if_pos (by omega)]; simp
    · by_cases hr : a + 1 ≤ x ∧ x < a + 1 + vs.length
      · obtain ⟨k, rfl⟩ : ∃ k, x = a + 1 + k := ⟨x - (a + 1), by omega⟩
        rw [if_pos hr, if_pos (by omega), show a + 1 + k - (a + 1) = k by omega, show a + 1 + k - a = k + 1 by omega]
        simp
      · rw [if_neg hr, if_neg hx, if_neg (by omega)]

/-! ## The canonical form -/

theorem Memory.wfFrom_cons (lo a : Nat) (v : Byte) (m : Memory) :
    Memory.wfFrom lo ((a, v) :: m) = true ↔
      lo ≤ a ∧ a < 64 ∧ v ≠ Config.unwrittenByte ∧ Memory.wfFrom (a + 1) m = true := by
  simp [Memory.wfFrom, and_assoc]

theorem Memory.wfFrom_mono (m : Memory) (lo lo' : Nat) (hlo : lo' ≤ lo) (h : Memory.wfFrom lo m = true) :
    Memory.wfFrom lo' m = true := by
  cases m with
  | nil => rfl
  | cons c m =>
    rw [Memory.wfFrom_cons] at h ⊢
    exact ⟨by omega, h.2⟩

theorem Memory.wfFrom_dropEntry (m : Memory) (lo a : Nat) (h : Memory.wfFrom lo m = true) :
    Memory.wfFrom lo (m.dropEntry a) = true := by
  induction m generalizing lo with
  | nil => rfl
  | cons c m ih =>
    obtain ⟨b, v⟩ := c
    rw [Memory.wfFrom_cons] at h
    by_cases hb : b = a
    · have he : Memory.dropEntry ((b, v) :: m) a = Memory.dropEntry m a := by simp [Memory.dropEntry, hb]
      rw [he]
      exact ih lo (Memory.wfFrom_mono _ _ _ (by omega) h.2.2.2)
    · have he : Memory.dropEntry ((b, v) :: m) a = (b, v) :: Memory.dropEntry m a := by simp [Memory.dropEntry, hb]
      rw [he, Memory.wfFrom_cons]
      exact ⟨h.1, h.2.1, h.2.2.1, ih _ h.2.2.2⟩

theorem Memory.wfFrom_putEntry (m : Memory) (lo a : Nat) (v : Byte) (ha : lo ≤ a) (h64 : a < 64)
    (hv : v ≠ Config.unwrittenByte) (hne : ∀ c ∈ m, c.1 ≠ a) (h : Memory.wfFrom lo m = true) :
    Memory.wfFrom lo (m.putEntry a v) = true := by
  induction m generalizing lo with
  | nil => exact (Memory.wfFrom_cons _ _ _ _).mpr ⟨ha, h64, hv, rfl⟩
  | cons c m ih =>
    obtain ⟨b, w⟩ := c
    have hb : b ≠ a := hne (b, w) (by simp)
    rw [Memory.wfFrom_cons] at h
    unfold Memory.putEntry
    split
    · rw [Memory.wfFrom_cons, Memory.wfFrom_cons]
      exact ⟨ha, h64, hv, by omega, h.2⟩
    · rw [Memory.wfFrom_cons]
      exact ⟨h.1, h.2.1, h.2.2.1, ih _ (by omega) (fun d hd => hne d (by simp [hd])) h.2.2.2⟩

/-- A write at an offset of BUF keeps the canonical form. -/
theorem Memory.wf_write (m : Memory) (a : Nat) (v : Byte) (ha : a < 64) (h : m.wf = true) : (m.write a v).wf = true := by
  unfold Memory.write
  split
  · exact Memory.wfFrom_dropEntry _ _ _ h
  · exact Memory.wfFrom_putEntry _ _ _ _ (Nat.zero_le _) ha ‹_› (m.mem_dropEntry a) (Memory.wfFrom_dropEntry _ _ _ h)

/-- A run of bytes written inside BUF keeps the canonical form. -/
theorem Memory.wf_writeBytes (bytes : List Byte) (m : Memory) (a : Nat) (ha : a + bytes.length ≤ 64)
    (h : m.wf = true) : (m.writeBytes a bytes).wf = true := by
  induction bytes generalizing m a with
  | nil => exact h
  | cons v vs ih =>
    rw [List.length_cons] at ha
    exact ih _ _ (by omega) (Memory.wf_write _ _ _ (by omega) h)

/-- The reset memory is in canonical form. -/
theorem Memory.wf_reset : State.reset.buf.wf = true := rfl

end Sys2Proof.Machine
end

