-- ==== Sys2Proof/Laws/State.lean ====
section
/-! SUPPORT. One lemma for each field and each named update of the state: what the update leaves in the field. -/

namespace Sys2Proof.Machine

/-! ## raiseHostError -/

@[simp] theorem State.raiseHostError_hs (s : State) (c : BitVec 4) : (s.raiseHostError c).hs = s.hs := rfl
@[simp] theorem State.raiseHostError_wk (s : State) (c : BitVec 4) : (s.raiseHostError c).wk = s.wk := rfl
@[simp] theorem State.raiseHostError_mw (s : State) (c : BitVec 4) : (s.raiseHostError c).mw = s.mw := rfl
@[simp] theorem State.raiseHostError_stepNo (s : State) (c : BitVec 4) : (s.raiseHostError c).stepNo = s.stepNo := rfl
@[simp] theorem State.raiseHostError_eng (s : State) (c : BitVec 4) : (s.raiseHostError c).eng = s.eng := rfl
@[simp] theorem State.raiseHostError_fseq (s : State) (c : BitVec 4) : (s.raiseHostError c).fseq = s.fseq := rfl
@[simp] theorem State.raiseHostError_buf (s : State) (c : BitVec 4) : (s.raiseHostError c).buf = s.buf := rfl
@[simp] theorem State.raiseHostError_fill (s : State) (c : BitVec 4) : (s.raiseHostError c).fill = s.fill := rfl
@[simp] theorem State.raiseHostError_len (s : State) (c : BitVec 4) : (s.raiseHostError c).len = s.len := rfl
@[simp] theorem State.raiseHostError_alg (s : State) (c : BitVec 4) : (s.raiseHostError c).alg = s.alg := rfl
@[simp] theorem State.raiseHostError_phase (s : State) (c : BitVec 4) : (s.raiseHostError c).phase = s.phase := rfl
@[simp] theorem State.raiseHostError_err (s : State) (c : BitVec 4) : (s.raiseHostError c).err = true := rfl
@[simp] theorem State.raiseHostError_errcode (s : State) (c : BitVec 4) : (s.raiseHostError c).errcode = if s.err then s.errcode else c := rfl
@[simp] theorem State.raiseHostError_hostq (s : State) (c : BitVec 4) : (s.raiseHostError c).hostq = s.hostq := rfl
@[simp] theorem State.raiseHostError_sched (s : State) (c : BitVec 4) : (s.raiseHostError c).sched = s.sched := rfl
@[simp] theorem State.raiseHostError_resp (s : State) (c : BitVec 4) : (s.raiseHostError c).resp = s.resp := rfl

/-! ## clearHostError -/

@[simp] theorem State.clearHostError_hs (s : State) : (s.clearHostError).hs = s.hs := rfl
@[simp] theorem State.clearHostError_wk (s : State) : (s.clearHostError).wk = s.wk := rfl
@[simp] theorem State.clearHostError_mw (s : State) : (s.clearHostError).mw = s.mw := rfl
@[simp] theorem State.clearHostError_stepNo (s : State) : (s.clearHostError).stepNo = s.stepNo := rfl
@[simp] theorem State.clearHostError_eng (s : State) : (s.clearHostError).eng = s.eng := rfl
@[simp] theorem State.clearHostError_fseq (s : State) : (s.clearHostError).fseq = s.fseq := rfl
@[simp] theorem State.clearHostError_buf (s : State) : (s.clearHostError).buf = s.buf := rfl
@[simp] theorem State.clearHostError_fill (s : State) : (s.clearHostError).fill = s.fill := rfl
@[simp] theorem State.clearHostError_len (s : State) : (s.clearHostError).len = s.len := rfl
@[simp] theorem State.clearHostError_alg (s : State) : (s.clearHostError).alg = s.alg := rfl
@[simp] theorem State.clearHostError_phase (s : State) : (s.clearHostError).phase = s.phase := rfl
@[simp] theorem State.clearHostError_err (s : State) : (s.clearHostError).err = false := rfl
@[simp] theorem State.clearHostError_errcode (s : State) : (s.clearHostError).errcode = 0 := rfl
@[simp] theorem State.clearHostError_hostq (s : State) : (s.clearHostError).hostq = s.hostq := rfl
@[simp] theorem State.clearHostError_sched (s : State) : (s.clearHostError).sched = s.sched := rfl
@[simp] theorem State.clearHostError_resp (s : State) : (s.clearHostError).resp = s.resp := rfl

/-! ## hold -/

@[simp] theorem State.hold_hs (s : State) (tw : Tw) : (s.hold tw).hs = s.hs := rfl
@[simp] theorem State.hold_wk (s : State) (tw : Tw) : (s.hold tw).wk = s.wk := rfl
@[simp] theorem State.hold_mw (s : State) (tw : Tw) : (s.hold tw).mw = s.mw := rfl
@[simp] theorem State.hold_stepNo (s : State) (tw : Tw) : (s.hold tw).stepNo = s.stepNo := rfl
@[simp] theorem State.hold_eng (s : State) (tw : Tw) : (s.hold tw).eng = s.eng := rfl
@[simp] theorem State.hold_fseq (s : State) (tw : Tw) : (s.hold tw).fseq = s.fseq := rfl
@[simp] theorem State.hold_buf (s : State) (tw : Tw) : (s.hold tw).buf = s.buf := rfl
@[simp] theorem State.hold_fill (s : State) (tw : Tw) : (s.hold tw).fill = s.fill := rfl
@[simp] theorem State.hold_len (s : State) (tw : Tw) : (s.hold tw).len = s.len := rfl
@[simp] theorem State.hold_alg (s : State) (tw : Tw) : (s.hold tw).alg = s.alg := rfl
@[simp] theorem State.hold_phase (s : State) (tw : Tw) : (s.hold tw).phase = s.phase := rfl
@[simp] theorem State.hold_err (s : State) (tw : Tw) : (s.hold tw).err = s.err := rfl
@[simp] theorem State.hold_errcode (s : State) (tw : Tw) : (s.hold tw).errcode = s.errcode := rfl
@[simp] theorem State.hold_hostq (s : State) (tw : Tw) : (s.hold tw).hostq = tw :: s.hostq := rfl
@[simp] theorem State.hold_sched (s : State) (tw : Tw) : (s.hold tw).sched = s.sched := rfl
@[simp] theorem State.hold_resp (s : State) (tw : Tw) : (s.hold tw).resp = s.resp := rfl
@[simp] theorem State.hold_broken (s : State) (tw : Tw) : (s.hold tw).broken = s.broken := rfl

/-! ## takeTurn -/

@[simp] theorem State.takeTurn_hs (s : State) : (s.takeTurn).hs = s.hs := rfl
@[simp] theorem State.takeTurn_wk (s : State) : (s.takeTurn).wk = s.wk := rfl
@[simp] theorem State.takeTurn_mw (s : State) : (s.takeTurn).mw = s.mw := rfl
@[simp] theorem State.takeTurn_stepNo (s : State) : (s.takeTurn).stepNo = s.stepNo := rfl
@[simp] theorem State.takeTurn_eng (s : State) : (s.takeTurn).eng = s.eng := rfl
@[simp] theorem State.takeTurn_fseq (s : State) : (s.takeTurn).fseq = s.fseq := rfl
@[simp] theorem State.takeTurn_buf (s : State) : (s.takeTurn).buf = s.buf := rfl
@[simp] theorem State.takeTurn_fill (s : State) : (s.takeTurn).fill = s.fill := rfl
@[simp] theorem State.takeTurn_len (s : State) : (s.takeTurn).len = s.len := rfl
@[simp] theorem State.takeTurn_alg (s : State) : (s.takeTurn).alg = s.alg := rfl
@[simp] theorem State.takeTurn_phase (s : State) : (s.takeTurn).phase = s.phase := rfl
@[simp] theorem State.takeTurn_err (s : State) : (s.takeTurn).err = s.err := rfl
@[simp] theorem State.takeTurn_errcode (s : State) : (s.takeTurn).errcode = s.errcode := rfl
@[simp] theorem State.takeTurn_hostq (s : State) : (s.takeTurn).hostq = s.hostq := rfl
@[simp] theorem State.takeTurn_sched (s : State) : (s.takeTurn).sched = s.sched.tail := rfl
@[simp] theorem State.takeTurn_resp (s : State) : (s.takeTurn).resp = s.resp := rfl
@[simp] theorem State.takeTurn_broken (s : State) : (s.takeTurn).broken = s.broken := rfl

/-! ## takeTransaction -/

@[simp] theorem State.takeTransaction_hs (s : State) : (s.takeTransaction).hs = s.hs := rfl
@[simp] theorem State.takeTransaction_wk (s : State) : (s.takeTransaction).wk = s.wk := rfl
@[simp] theorem State.takeTransaction_mw (s : State) : (s.takeTransaction).mw = s.mw := rfl
@[simp] theorem State.takeTransaction_stepNo (s : State) : (s.takeTransaction).stepNo = s.stepNo := rfl
@[simp] theorem State.takeTransaction_eng (s : State) : (s.takeTransaction).eng = s.eng := rfl
@[simp] theorem State.takeTransaction_fseq (s : State) : (s.takeTransaction).fseq = s.fseq := rfl
@[simp] theorem State.takeTransaction_buf (s : State) : (s.takeTransaction).buf = s.buf := rfl
@[simp] theorem State.takeTransaction_fill (s : State) : (s.takeTransaction).fill = s.fill := rfl
@[simp] theorem State.takeTransaction_len (s : State) : (s.takeTransaction).len = s.len := rfl
@[simp] theorem State.takeTransaction_alg (s : State) : (s.takeTransaction).alg = s.alg := rfl
@[simp] theorem State.takeTransaction_phase (s : State) : (s.takeTransaction).phase = s.phase := rfl
@[simp] theorem State.takeTransaction_err (s : State) : (s.takeTransaction).err = s.err := rfl
@[simp] theorem State.takeTransaction_errcode (s : State) : (s.takeTransaction).errcode = s.errcode := rfl
@[simp] theorem State.takeTransaction_hostq (s : State) : (s.takeTransaction).hostq = s.hostq.tail := rfl
@[simp] theorem State.takeTransaction_sched (s : State) : (s.takeTransaction).sched = s.sched.tail := rfl
@[simp] theorem State.takeTransaction_resp (s : State) : (s.takeTransaction).resp = s.resp := rfl
@[simp] theorem State.takeTransaction_broken (s : State) : (s.takeTransaction).broken = s.broken := rfl

/-! ## takeReset -/

@[simp] theorem State.takeReset_hs (s : State) (k : Bool) : (s.takeReset k).hs = State.reset.hs := rfl
@[simp] theorem State.takeReset_wk (s : State) (k : Bool) : (s.takeReset k).wk = State.reset.wk := rfl
@[simp] theorem State.takeReset_mw (s : State) (k : Bool) : (s.takeReset k).mw = State.reset.mw := rfl
@[simp] theorem State.takeReset_stepNo (s : State) (k : Bool) : (s.takeReset k).stepNo = State.reset.stepNo := rfl
@[simp] theorem State.takeReset_eng (s : State) (k : Bool) : (s.takeReset k).eng = State.reset.eng := rfl
@[simp] theorem State.takeReset_fseq (s : State) (k : Bool) : (s.takeReset k).fseq = State.reset.fseq := rfl
@[simp] theorem State.takeReset_buf (s : State) (k : Bool) : (s.takeReset k).buf = State.reset.buf := rfl
@[simp] theorem State.takeReset_fill (s : State) (k : Bool) : (s.takeReset k).fill = State.reset.fill := rfl
@[simp] theorem State.takeReset_len (s : State) (k : Bool) : (s.takeReset k).len = State.reset.len := rfl
@[simp] theorem State.takeReset_alg (s : State) (k : Bool) : (s.takeReset k).alg = State.reset.alg := rfl
@[simp] theorem State.takeReset_phase (s : State) (k : Bool) : (s.takeReset k).phase = State.reset.phase := rfl
@[simp] theorem State.takeReset_err (s : State) (k : Bool) : (s.takeReset k).err = State.reset.err := rfl
@[simp] theorem State.takeReset_errcode (s : State) (k : Bool) : (s.takeReset k).errcode = State.reset.errcode := rfl
@[simp] theorem State.takeReset_hostq (s : State) (k : Bool) : (s.takeReset k).hostq = s.busAfterReset k := rfl
@[simp] theorem State.takeReset_sched (s : State) (k : Bool) : (s.takeReset k).sched = s.sched.tail := rfl
@[simp] theorem State.takeReset_resp (s : State) (k : Bool) : (s.takeReset k).resp = State.reset.resp := rfl

/-! ## loadMd5 -/

@[simp] theorem State.loadMd5_hs (s : State) : (s.loadMd5).hs = s.hs := rfl
@[simp] theorem State.loadMd5_wk (s : State) : (s.loadMd5).wk = #v[s.hs[0], s.hs[1], s.hs[2], s.hs[3], s.wk[4]] := rfl
@[simp] theorem State.loadMd5_stepNo (s : State) : (s.loadMd5).stepNo = 0 := rfl
@[simp] theorem State.loadMd5_eng (s : State) : (s.loadMd5).eng = s.eng := rfl
@[simp] theorem State.loadMd5_fseq (s : State) : (s.loadMd5).fseq = s.fseq := rfl
@[simp] theorem State.loadMd5_buf (s : State) : (s.loadMd5).buf = s.buf := rfl
@[simp] theorem State.loadMd5_fill (s : State) : (s.loadMd5).fill = s.fill := rfl
@[simp] theorem State.loadMd5_len (s : State) : (s.loadMd5).len = s.len := rfl
@[simp] theorem State.loadMd5_alg (s : State) : (s.loadMd5).alg = s.alg := rfl
@[simp] theorem State.loadMd5_phase (s : State) : (s.loadMd5).phase = s.phase := rfl
@[simp] theorem State.loadMd5_err (s : State) : (s.loadMd5).err = s.err := rfl
@[simp] theorem State.loadMd5_errcode (s : State) : (s.loadMd5).errcode = s.errcode := rfl
@[simp] theorem State.loadMd5_hostq (s : State) : (s.loadMd5).hostq = s.hostq := rfl
@[simp] theorem State.loadMd5_sched (s : State) : (s.loadMd5).sched = s.sched := rfl
@[simp] theorem State.loadMd5_resp (s : State) : (s.loadMd5).resp = s.resp := rfl

/-! ## loadSha1 -/

@[simp] theorem State.loadSha1_hs (s : State) : (s.loadSha1).hs = s.hs := rfl
@[simp] theorem State.loadSha1_wk (s : State) : (s.loadSha1).wk = s.hs := rfl
@[simp] theorem State.loadSha1_stepNo (s : State) : (s.loadSha1).stepNo = 0 := rfl
@[simp] theorem State.loadSha1_eng (s : State) : (s.loadSha1).eng = s.eng := rfl
@[simp] theorem State.loadSha1_fseq (s : State) : (s.loadSha1).fseq = s.fseq := rfl
@[simp] theorem State.loadSha1_buf (s : State) : (s.loadSha1).buf = s.buf := rfl
@[simp] theorem State.loadSha1_fill (s : State) : (s.loadSha1).fill = s.fill := rfl
@[simp] theorem State.loadSha1_len (s : State) : (s.loadSha1).len = s.len := rfl
@[simp] theorem State.loadSha1_alg (s : State) : (s.loadSha1).alg = s.alg := rfl
@[simp] theorem State.loadSha1_phase (s : State) : (s.loadSha1).phase = s.phase := rfl
@[simp] theorem State.loadSha1_err (s : State) : (s.loadSha1).err = s.err := rfl
@[simp] theorem State.loadSha1_errcode (s : State) : (s.loadSha1).errcode = s.errcode := rfl
@[simp] theorem State.loadSha1_hostq (s : State) : (s.loadSha1).hostq = s.hostq := rfl
@[simp] theorem State.loadSha1_sched (s : State) : (s.loadSha1).sched = s.sched := rfl
@[simp] theorem State.loadSha1_resp (s : State) : (s.loadSha1).resp = s.resp := rfl

/-! ## dispatchBlock -/

@[simp] theorem State.dispatchBlock_hs (s : State) : (s.dispatchBlock).hs = s.hs := by unfold State.dispatchBlock; split <;> rfl
@[simp] theorem State.dispatchBlock_wk (s : State) : (s.dispatchBlock).wk = if s.alg = 0 then s.loadMd5.wk else s.loadSha1.wk := by unfold State.dispatchBlock; split <;> rfl
@[simp] theorem State.dispatchBlock_mw (s : State) : (s.dispatchBlock).mw = if s.alg = 0 then s.loadMd5.mw else s.loadSha1.mw := by unfold State.dispatchBlock; split <;> rfl
@[simp] theorem State.dispatchBlock_stepNo (s : State) : (s.dispatchBlock).stepNo = 0 := by unfold State.dispatchBlock; split <;> rfl
@[simp] theorem State.dispatchBlock_eng (s : State) : (s.dispatchBlock).eng = engRun := rfl
@[simp] theorem State.dispatchBlock_fseq (s : State) : (s.dispatchBlock).fseq = s.fseq := by unfold State.dispatchBlock; split <;> rfl
@[simp] theorem State.dispatchBlock_buf (s : State) : (s.dispatchBlock).buf = s.buf := by unfold State.dispatchBlock; split <;> rfl
@[simp] theorem State.dispatchBlock_fill (s : State) : (s.dispatchBlock).fill = s.fill := by unfold State.dispatchBlock; split <;> rfl
@[simp] theorem State.dispatchBlock_len (s : State) : (s.dispatchBlock).len = s.len := by unfold State.dispatchBlock; split <;> rfl
@[simp] theorem State.dispatchBlock_alg (s : State) : (s.dispatchBlock).alg = s.alg := by unfold State.dispatchBlock; split <;> rfl
@[simp] theorem State.dispatchBlock_phase (s : State) : (s.dispatchBlock).phase = s.phase := by unfold State.dispatchBlock; split <;> rfl
@[simp] theorem State.dispatchBlock_err (s : State) : (s.dispatchBlock).err = s.err := by unfold State.dispatchBlock; split <;> rfl
@[simp] theorem State.dispatchBlock_errcode (s : State) : (s.dispatchBlock).errcode = s.errcode := by unfold State.dispatchBlock; split <;> rfl
@[simp] theorem State.dispatchBlock_hostq (s : State) : (s.dispatchBlock).hostq = s.hostq := by unfold State.dispatchBlock; split <;> rfl
@[simp] theorem State.dispatchBlock_sched (s : State) : (s.dispatchBlock).sched = s.sched := by unfold State.dispatchBlock; split <;> rfl
@[simp] theorem State.dispatchBlock_resp (s : State) : (s.dispatchBlock).resp = s.resp := by unfold State.dispatchBlock; split <;> rfl

/-! ## advanceStep -/

@[simp] theorem State.advanceStep_hs (s : State) (n : Nat) : (s.advanceStep n).hs = s.hs := rfl
@[simp] theorem State.advanceStep_wk (s : State) (n : Nat) : (s.advanceStep n).wk = s.wk := rfl
@[simp] theorem State.advanceStep_mw (s : State) (n : Nat) : (s.advanceStep n).mw = s.mw := rfl
@[simp] theorem State.advanceStep_stepNo (s : State) (n : Nat) : (s.advanceStep n).stepNo = s.stepNo + 1 := rfl
@[simp] theorem State.advanceStep_eng (s : State) (n : Nat) : (s.advanceStep n).eng = if (s.stepNo + 1).toNat = n then engChain else s.eng := rfl
@[simp] theorem State.advanceStep_fseq (s : State) (n : Nat) : (s.advanceStep n).fseq = s.fseq := rfl
@[simp] theorem State.advanceStep_buf (s : State) (n : Nat) : (s.advanceStep n).buf = s.buf := rfl
@[simp] theorem State.advanceStep_fill (s : State) (n : Nat) : (s.advanceStep n).fill = s.fill := rfl
@[simp] theorem State.advanceStep_len (s : State) (n : Nat) : (s.advanceStep n).len = s.len := rfl
@[simp] theorem State.advanceStep_alg (s : State) (n : Nat) : (s.advanceStep n).alg = s.alg := rfl
@[simp] theorem State.advanceStep_phase (s : State) (n : Nat) : (s.advanceStep n).phase = s.phase := rfl
@[simp] theorem State.advanceStep_err (s : State) (n : Nat) : (s.advanceStep n).err = s.err := rfl
@[simp] theorem State.advanceStep_errcode (s : State) (n : Nat) : (s.advanceStep n).errcode = s.errcode := rfl
@[simp] theorem State.advanceStep_hostq (s : State) (n : Nat) : (s.advanceStep n).hostq = s.hostq := rfl
@[simp] theorem State.advanceStep_sched (s : State) (n : Nat) : (s.advanceStep n).sched = s.sched := rfl
@[simp] theorem State.advanceStep_resp (s : State) (n : Nat) : (s.advanceStep n).resp = s.resp := rfl

/-! ## md5Step -/

@[simp] theorem State.md5Step_hs (s : State) (fn : Word → Word → Word → Word) : (s.md5Step fn).hs = s.hs := rfl
@[simp] theorem State.md5Step_wk (s : State) (fn : Word → Word → Word → Word) : (s.md5Step fn).wk = #v[s.wk[3], md5StepValue fn s.stepNo.toNat s.mw s.wk[0] s.wk[1] s.wk[2] s.wk[3], s.wk[1], s.wk[2], s.wk[4]] := rfl
@[simp] theorem State.md5Step_mw (s : State) (fn : Word → Word → Word → Word) : (s.md5Step fn).mw = s.mw := rfl
@[simp] theorem State.md5Step_stepNo (s : State) (fn : Word → Word → Word → Word) : (s.md5Step fn).stepNo = s.stepNo + 1 := rfl
@[simp] theorem State.md5Step_eng (s : State) (fn : Word → Word → Word → Word) : (s.md5Step fn).eng = if (s.stepNo + 1).toNat = 64 then engChain else s.eng := rfl
@[simp] theorem State.md5Step_fseq (s : State) (fn : Word → Word → Word → Word) : (s.md5Step fn).fseq = s.fseq := rfl
@[simp] theorem State.md5Step_buf (s : State) (fn : Word → Word → Word → Word) : (s.md5Step fn).buf = s.buf := rfl
@[simp] theorem State.md5Step_fill (s : State) (fn : Word → Word → Word → Word) : (s.md5Step fn).fill = s.fill := rfl
@[simp] theorem State.md5Step_len (s : State) (fn : Word → Word → Word → Word) : (s.md5Step fn).len = s.len := rfl
@[simp] theorem State.md5Step_alg (s : State) (fn : Word → Word → Word → Word) : (s.md5Step fn).alg = s.alg := rfl
@[simp] theorem State.md5Step_phase (s : State) (fn : Word → Word → Word → Word) : (s.md5Step fn).phase = s.phase := rfl
@[simp] theorem State.md5Step_err (s : State) (fn : Word → Word → Word → Word) : (s.md5Step fn).err = s.err := rfl
@[simp] theorem State.md5Step_errcode (s : State) (fn : Word → Word → Word → Word) : (s.md5Step fn).errcode = s.errcode := rfl
@[simp] theorem State.md5Step_hostq (s : State) (fn : Word → Word → Word → Word) : (s.md5Step fn).hostq = s.hostq := rfl
@[simp] theorem State.md5Step_sched (s : State) (fn : Word → Word → Word → Word) : (s.md5Step fn).sched = s.sched := rfl
@[simp] theorem State.md5Step_resp (s : State) (fn : Word → Word → Word → Word) : (s.md5Step fn).resp = s.resp := rfl

/-! ## sha1Sched -/

@[simp] theorem State.sha1Sched_hs (s : State) : (s.sha1Sched).hs = s.hs := rfl
@[simp] theorem State.sha1Sched_wk (s : State) : (s.sha1Sched).wk = s.wk := rfl
@[simp] theorem State.sha1Sched_mw (s : State) : (s.sha1Sched).mw = sha1Window s.mw s.stepNo.toNat := rfl
@[simp] theorem State.sha1Sched_stepNo (s : State) : (s.sha1Sched).stepNo = s.stepNo := rfl
@[simp] theorem State.sha1Sched_eng (s : State) : (s.sha1Sched).eng = s.eng := rfl
@[simp] theorem State.sha1Sched_fseq (s : State) : (s.sha1Sched).fseq = s.fseq := rfl
@[simp] theorem State.sha1Sched_buf (s : State) : (s.sha1Sched).buf = s.buf := rfl
@[simp] theorem State.sha1Sched_fill (s : State) : (s.sha1Sched).fill = s.fill := rfl
@[simp] theorem State.sha1Sched_len (s : State) : (s.sha1Sched).len = s.len := rfl
@[simp] theorem State.sha1Sched_alg (s : State) : (s.sha1Sched).alg = s.alg := rfl
@[simp] theorem State.sha1Sched_phase (s : State) : (s.sha1Sched).phase = s.phase := rfl
@[simp] theorem State.sha1Sched_err (s : State) : (s.sha1Sched).err = s.err := rfl
@[simp] theorem State.sha1Sched_errcode (s : State) : (s.sha1Sched).errcode = s.errcode := rfl
@[simp] theorem State.sha1Sched_hostq (s : State) : (s.sha1Sched).hostq = s.hostq := rfl
@[simp] theorem State.sha1Sched_sched (s : State) : (s.sha1Sched).sched = s.sched := rfl
@[simp] theorem State.sha1Sched_resp (s : State) : (s.sha1Sched).resp = s.resp := rfl

/-! ## sha1Step -/

@[simp] theorem State.sha1Step_hs (s : State) (fn : Word → Word → Word → Word) (k : Word) : (s.sha1Step fn k).hs = s.hs := rfl
@[simp] theorem State.sha1Step_wk (s : State) (fn : Word → Word → Word → Word) (k : Word) : (s.sha1Step fn k).wk = #v[sha1StepValue fn k (sha1Word s.mw s.stepNo.toNat) s.wk[0] s.wk[1] s.wk[2] s.wk[3] s.wk[4], s.wk[0], rotl32 s.wk[1] 30, s.wk[2], s.wk[3]] := rfl
@[simp] theorem State.sha1Step_mw (s : State) (fn : Word → Word → Word → Word) (k : Word) : (s.sha1Step fn k).mw = sha1Window s.mw s.stepNo.toNat := rfl
@[simp] theorem State.sha1Step_stepNo (s : State) (fn : Word → Word → Word → Word) (k : Word) : (s.sha1Step fn k).stepNo = s.stepNo + 1 := rfl
@[simp] theorem State.sha1Step_eng (s : State) (fn : Word → Word → Word → Word) (k : Word) : (s.sha1Step fn k).eng = if (s.stepNo + 1).toNat = 80 then engChain else s.eng := rfl
@[simp] theorem State.sha1Step_fseq (s : State) (fn : Word → Word → Word → Word) (k : Word) : (s.sha1Step fn k).fseq = s.fseq := rfl
@[simp] theorem State.sha1Step_buf (s : State) (fn : Word → Word → Word → Word) (k : Word) : (s.sha1Step fn k).buf = s.buf := rfl
@[simp] theorem State.sha1Step_fill (s : State) (fn : Word → Word → Word → Word) (k : Word) : (s.sha1Step fn k).fill = s.fill := rfl
@[simp] theorem State.sha1Step_len (s : State) (fn : Word → Word → Word → Word) (k : Word) : (s.sha1Step fn k).len = s.len := rfl
@[simp] theorem State.sha1Step_alg (s : State) (fn : Word → Word → Word → Word) (k : Word) : (s.sha1Step fn k).alg = s.alg := rfl
@[simp] theorem State.sha1Step_phase (s : State) (fn : Word → Word → Word → Word) (k : Word) : (s.sha1Step fn k).phase = s.phase := rfl
@[simp] theorem State.sha1Step_err (s : State) (fn : Word → Word → Word → Word) (k : Word) : (s.sha1Step fn k).err = s.err := rfl
@[simp] theorem State.sha1Step_errcode (s : State) (fn : Word → Word → Word → Word) (k : Word) : (s.sha1Step fn k).errcode = s.errcode := rfl
@[simp] theorem State.sha1Step_hostq (s : State) (fn : Word → Word → Word → Word) (k : Word) : (s.sha1Step fn k).hostq = s.hostq := rfl
@[simp] theorem State.sha1Step_sched (s : State) (fn : Word → Word → Word → Word) (k : Word) : (s.sha1Step fn k).sched = s.sched := rfl
@[simp] theorem State.sha1Step_resp (s : State) (fn : Word → Word → Word → Word) (k : Word) : (s.sha1Step fn k).resp = s.resp := rfl

/-! ## chainMd5 -/

@[simp] theorem State.chainMd5_hs (s : State) : (s.chainMd5).hs = #v[s.hs[0] + s.wk[0], s.hs[1] + s.wk[1], s.hs[2] + s.wk[2], s.hs[3] + s.wk[3], s.hs[4]] := rfl
@[simp] theorem State.chainMd5_wk (s : State) : (s.chainMd5).wk = s.wk := rfl
@[simp] theorem State.chainMd5_mw (s : State) : (s.chainMd5).mw = s.mw := rfl
@[simp] theorem State.chainMd5_stepNo (s : State) : (s.chainMd5).stepNo = s.stepNo := rfl
@[simp] theorem State.chainMd5_eng (s : State) : (s.chainMd5).eng = s.eng := rfl
@[simp] theorem State.chainMd5_fseq (s : State) : (s.chainMd5).fseq = s.fseq := rfl
@[simp] theorem State.chainMd5_buf (s : State) : (s.chainMd5).buf = s.buf := rfl
@[simp] theorem State.chainMd5_fill (s : State) : (s.chainMd5).fill = s.fill := rfl
@[simp] theorem State.chainMd5_len (s : State) : (s.chainMd5).len = s.len := rfl
@[simp] theorem State.chainMd5_alg (s : State) : (s.chainMd5).alg = s.alg := rfl
@[simp] theorem State.chainMd5_phase (s : State) : (s.chainMd5).phase = s.phase := rfl
@[simp] theorem State.chainMd5_err (s : State) : (s.chainMd5).err = s.err := rfl
@[simp] theorem State.chainMd5_errcode (s : State) : (s.chainMd5).errcode = s.errcode := rfl
@[simp] theorem State.chainMd5_hostq (s : State) : (s.chainMd5).hostq = s.hostq := rfl
@[simp] theorem State.chainMd5_sched (s : State) : (s.chainMd5).sched = s.sched := rfl
@[simp] theorem State.chainMd5_resp (s : State) : (s.chainMd5).resp = s.resp := rfl

/-! ## chainSha1 -/

@[simp] theorem State.chainSha1_hs (s : State) : (s.chainSha1).hs = #v[s.hs[0] + s.wk[0], s.hs[1] + s.wk[1], s.hs[2] + s.wk[2], s.hs[3] + s.wk[3], s.hs[4] + s.wk[4]] := rfl
@[simp] theorem State.chainSha1_wk (s : State) : (s.chainSha1).wk = s.wk := rfl
@[simp] theorem State.chainSha1_mw (s : State) : (s.chainSha1).mw = s.mw := rfl
@[simp] theorem State.chainSha1_stepNo (s : State) : (s.chainSha1).stepNo = s.stepNo := rfl
@[simp] theorem State.chainSha1_eng (s : State) : (s.chainSha1).eng = s.eng := rfl
@[simp] theorem State.chainSha1_fseq (s : State) : (s.chainSha1).fseq = s.fseq := rfl
@[simp] theorem State.chainSha1_buf (s : State) : (s.chainSha1).buf = s.buf := rfl
@[simp] theorem State.chainSha1_fill (s : State) : (s.chainSha1).fill = s.fill := rfl
@[simp] theorem State.chainSha1_len (s : State) : (s.chainSha1).len = s.len := rfl
@[simp] theorem State.chainSha1_alg (s : State) : (s.chainSha1).alg = s.alg := rfl
@[simp] theorem State.chainSha1_phase (s : State) : (s.chainSha1).phase = s.phase := rfl
@[simp] theorem State.chainSha1_err (s : State) : (s.chainSha1).err = s.err := rfl
@[simp] theorem State.chainSha1_errcode (s : State) : (s.chainSha1).errcode = s.errcode := rfl
@[simp] theorem State.chainSha1_hostq (s : State) : (s.chainSha1).hostq = s.hostq := rfl
@[simp] theorem State.chainSha1_sched (s : State) : (s.chainSha1).sched = s.sched := rfl
@[simp] theorem State.chainSha1_resp (s : State) : (s.chainSha1).resp = s.resp := rfl

/-! ## openSession -/

@[simp] theorem State.openSession_hs (s : State) (a : BitVec 1) (h : Vector Word 5) : (s.openSession a h).hs = h := rfl
@[simp] theorem State.openSession_wk (s : State) (a : BitVec 1) (h : Vector Word 5) : (s.openSession a h).wk = s.wk := rfl
@[simp] theorem State.openSession_mw (s : State) (a : BitVec 1) (h : Vector Word 5) : (s.openSession a h).mw = s.mw := rfl
@[simp] theorem State.openSession_stepNo (s : State) (a : BitVec 1) (h : Vector Word 5) : (s.openSession a h).stepNo = s.stepNo := rfl
@[simp] theorem State.openSession_eng (s : State) (a : BitVec 1) (h : Vector Word 5) : (s.openSession a h).eng = s.eng := rfl
@[simp] theorem State.openSession_fseq (s : State) (a : BitVec 1) (h : Vector Word 5) : (s.openSession a h).fseq = false := rfl
@[simp] theorem State.openSession_buf (s : State) (a : BitVec 1) (h : Vector Word 5) : (s.openSession a h).buf = s.buf := rfl
@[simp] theorem State.openSession_fill (s : State) (a : BitVec 1) (h : Vector Word 5) : (s.openSession a h).fill = 0 := rfl
@[simp] theorem State.openSession_len (s : State) (a : BitVec 1) (h : Vector Word 5) : (s.openSession a h).len = 0 := rfl
@[simp] theorem State.openSession_alg (s : State) (a : BitVec 1) (h : Vector Word 5) : (s.openSession a h).alg = a := rfl
@[simp] theorem State.openSession_phase (s : State) (a : BitVec 1) (h : Vector Word 5) : (s.openSession a h).phase = phaseAbsorb := rfl
@[simp] theorem State.openSession_err (s : State) (a : BitVec 1) (h : Vector Word 5) : (s.openSession a h).err = s.err := rfl
@[simp] theorem State.openSession_errcode (s : State) (a : BitVec 1) (h : Vector Word 5) : (s.openSession a h).errcode = s.errcode := rfl
@[simp] theorem State.openSession_hostq (s : State) (a : BitVec 1) (h : Vector Word 5) : (s.openSession a h).hostq = s.hostq := rfl
@[simp] theorem State.openSession_sched (s : State) (a : BitVec 1) (h : Vector Word 5) : (s.openSession a h).sched = s.sched := rfl
@[simp] theorem State.openSession_resp (s : State) (a : BitVec 1) (h : Vector Word 5) : (s.openSession a h).resp = s.resp := rfl

/-! ## Updates of the response -/

@[simp] theorem State.setResp_broken (s : State) (r : Option Word) : State.broken { s with resp := r } = s.broken := rfl

/-- dispatch() neither reads nor writes the response. -/
theorem State.dispatchBlock_setResp (s : State) (r : Option Word) :
    State.dispatchBlock { s with resp := r } = { s.dispatchBlock with resp := r } := by
  unfold State.dispatchBlock
  dsimp only
  split <;> rfl

end Sys2Proof.Machine
end

