-- ==== Sys2Proof/Laws/Ops.lean ====
section
/-! SUPPORT. For each shared operation, what it does: what it answers where it succeeds, and everything it can answer. -/

namespace Sys2Proof.Machine

variable {s t : State} {k : State → Result} {act : State → Except Fault State}

/-! ## Broken invariants -/

/-- A state that shows no broken invariant: the conditions of R61, U5 and U6, one by one. -/
theorem State.broken_eq_none_iff (s : State) :
    s.broken = none ↔ s.eng ≠ 3 ∧ s.phase ≠ 3 ∧ (s.eng = engRun → s.stepNo.toNat < stepsOf s.alg) ∧
      (s.fseq = true → s.eng ≠ engIdle) ∧ s.errcode.toNat ≤ 3 := by
  unfold State.broken
  constructor
  · intro h
    split at h <;> try cases h
    split at h <;> try cases h
    split at h <;> try cases h
    split at h <;> try cases h
    split at h <;> try cases h
    simp_all
    omega
  · rintro ⟨h1, h2, h3, h4, h5⟩
    rw [if_neg h1, if_neg h2, if_neg, if_neg, if_neg (by omega)]
    · simpa using h4
    · simp only [Bool.and_eq_true, decide_eq_true_eq, not_and, Nat.not_le]
      exact h3

theorem State.checked_ok (h : s.broken = none) : s.checked k = k s := by simp [State.checked, h]

theorem State.checked_broken {f : Fault} (h : s.broken = some f) : s.checked k = .fault f := by
  simp [State.checked, h]

theorem State.checked_cases (h : s.checked k = .next t) : s.broken = none ∧ k s = .next t := by
  unfold State.checked at h
  split at h
  · cases h
  · exact ⟨‹_›, h⟩

theorem ofExcept_cases {r : Except Fault State} (h : ofExcept r = .next t) : r = .ok t := by
  cases r with
  | ok s => cases h; rfl
  | error f => cases h

/-! ## Host transactions -/

theorem hostWrite_idle (tw : Tw) (hb : s.broken = none) (he : s.eng = engIdle) :
    hostWrite tw act s = ofExcept (act { s with resp := none }) := by
  rw [hostWrite, State.checked_ok hb, if_pos he]

theorem hostWrite_busy (tw : Tw) (hb : s.broken = none) (he : s.eng ≠ engIdle) :
    hostWrite tw act s = .next (s.hold tw) := by
  rw [hostWrite, State.checked_ok hb, if_neg he]

/-- Everything a host write can do (R116): its act with ENG = IDLE, or wait. -/
theorem hostWrite_cases {tw : Tw} (h : hostWrite tw act s = .next t) :
    s.broken = none ∧
      ((s.eng = engIdle ∧ act { s with resp := none } = .ok t) ∨ (s.eng ≠ engIdle ∧ t = s.hold tw)) := by
  obtain ⟨hb, h⟩ := State.checked_cases h
  refine ⟨hb, ?_⟩
  split at h
  · exact .inl ⟨‹_›, ofExcept_cases h⟩
  · cases h; exact .inr ⟨‹_›, rfl⟩

theorem hostRead_ok (value : State → Word) (hb : s.broken = none) :
    hostRead value s = .next { s with resp := some (value s) } := by
  rw [hostRead, State.checked_ok hb]

/-- Everything a host read can do (R116, R47): answer, changing nothing else. -/
theorem hostRead_cases {value : State → Word} (h : hostRead value s = .next t) :
    s.broken = none ∧ t = { s with resp := some (value s) } := by
  obtain ⟨hb, h⟩ := State.checked_cases h
  cases h
  exact ⟨hb, rfl⟩

theorem whenTriggered_ok {cond : State → Bool} (hb : s.broken = none) (hc : cond s = true) :
    whenTriggered cond act s = ofExcept (act s) := by
  rw [whenTriggered, State.checked_ok hb, if_pos hc]

/-- Everything a triggered operation can do: its act, where its condition holds. -/
theorem whenTriggered_cases {cond : State → Bool} (h : whenTriggered cond act s = .next t) :
    s.broken = none ∧ cond s = true ∧ act s = .ok t := by
  obtain ⟨hb, h⟩ := State.checked_cases h
  split at h
  · exact ⟨hb, ‹_›, ofExcept_cases h⟩
  · cases h

theorem stepTriggered_iff (fsel : BitVec 3) (i : BitVec 7) (s : State) :
    stepTriggered fsel i s = true ↔ s.eng = engRun ∧ s.stepNo = i ∧ s.fsel = fsel := by
  simp [stepTriggered, and_assoc]

theorem chainTriggered_iff (alg : BitVec 1) (i : BitVec 7) (s : State) :
    chainTriggered alg i s = true ↔ s.eng = engChain ∧ s.stepNo = i ∧ s.alg = alg := by
  simp [chainTriggered, and_assoc]

theorem inSession_open (h : s.phase = phaseAbsorb) : State.inSession act s = act s := if_pos h

theorem inSession_closed (h : s.phase ≠ phaseAbsorb) :
    State.inSession act s = .ok (s.raiseHostError errNoSession) := if_neg h

/-! ## BUF -/

theorem State.memWrite_ok {a : Nat} {bytes : List Byte} (h : a + bytes.length ≤ 64) :
    s.memWrite a bytes = .ok { s with buf := s.buf.writeBytes a bytes } := if_pos h

/-- Everything a write to BUF can do: the bytes stored inside BUF, nothing else changed. -/
theorem State.memWrite_cases {a : Nat} {bytes : List Byte} (h : s.memWrite a bytes = .ok t) :
    a + bytes.length ≤ 64 ∧ t = { s with buf := s.buf.writeBytes a bytes } := by
  unfold State.memWrite at h
  split at h
  · cases h; exact ⟨‹_›, rfl⟩
  · cases h

theorem State.memWrite_bind {a : Nat} {bytes : List Byte} {f : State → Except Fault State}
    (h : a + bytes.length ≤ 64) : (s.memWrite a bytes >>= f) = f { s with buf := s.buf.writeBytes a bytes } := by
  rw [State.memWrite_ok h]
  rfl

theorem bind_cases {r : Except Fault State} {f : State → Except Fault State} (h : (r >>= f) = .ok t) :
    ∃ u, r = .ok u ∧ f u = .ok t := by
  cases r with
  | ok u => exact ⟨u, rfl, h⟩
  | error e => cases h

/-! ## The padding buffer builder -/

/-- A byte stored at FILL, FILL and L advanced: PAD_APPEND before it looks at FILL (R70). -/
def State.storedByte (b : Byte) (s : State) : State :=
  { s with buf := s.buf.writeBytes s.fill.toNat [b], fill := s.fill + 1, len := s.len + 1 }

/-- BUF as PAD_FINISH_ONE leaves it (R72). -/
def State.finishOneBuf (s : State) : Memory :=
  ((s.buf.writeBytes s.fill.toNat [0x80]).writeBytes (s.fill.toNat + 1)
    (List.replicate (55 - s.fill.toNat) 0)).writeBytes 56 (lengthBytes s.alg s.bitlen)

/-- BUF as PAD_FINISH_TWO leaves it (R73). -/
def State.finishTwoBuf (s : State) : Memory :=
  (s.buf.writeBytes s.fill.toNat [0x80]).writeBytes (s.fill.toNat + 1) (List.replicate (63 - s.fill.toNat) 0)

/-- BUF as PAD_LENBLOCK leaves it (R74). -/
def State.lengthBuf (s : State) : Memory :=
  (s.buf.writeBytes 0 (List.replicate 56 0)).writeBytes 56 (lengthBytes s.alg s.bitlen)

@[simp] theorem lengthBytes_length (alg : BitVec 1) (n : BitVec 64) : (lengthBytes alg n).length = 8 := by
  unfold lengthBytes; split <;> rfl

theorem State.appendByte_eq (b : Byte) (h : s.fill.toNat < 64) :
    s.appendByte b = .ok (if s.fill = 63 then { (s.storedByte b).dispatchBlock with fill := 0 } else s.storedByte b) := by
  have hm : s.memWrite s.fill.toNat [b] = .ok { s with buf := s.buf.writeBytes s.fill.toNat [b] } :=
    State.memWrite_ok (by simpa using h)
  have hf : s.fill + 1 = 64 ↔ s.fill = 63 := by bv_omega
  simp only [State.appendByte, hm, bind, Except.bind]
  by_cases hx : s.fill = 63
  · rw [if_pos (hf.mpr hx), if_pos hx]; rfl
  · rw [if_neg (fun e => hx (hf.mp e)), if_neg hx]; rfl

/-- Everything PAD_APPEND can do (R70). -/
theorem State.appendByte_cases {b : Byte} (h : s.appendByte b = .ok t) :
    (s.fill.toNat < 63 ∧ t = s.storedByte b) ∨
      (s.fill = 63 ∧ t = { (s.storedByte b).dispatchBlock with fill := 0 }) := by
  obtain ⟨u, hu, -⟩ := bind_cases h
  have hlt : s.fill.toNat < 64 := by simpa using (State.memWrite_cases hu).1
  rw [State.appendByte_eq b hlt] at h
  split at h
  · cases h; exact .inr ⟨‹_›, rfl⟩
  · cases h; exact .inl ⟨by bv_omega, rfl⟩

theorem State.finishOneBlock_eq (h : s.fill.toNat ≤ 55) :
    s.finishOneBlock =
      .ok { ({ s with buf := s.finishOneBuf } : State).dispatchBlock with fseq := false, fill := 0 } := by
  unfold State.finishOneBlock
  dsimp only
  rw [State.memWrite_bind (by simp; omega), State.memWrite_bind (by simp; omega), State.memWrite_bind (by simp)]
  rfl

theorem State.finishTwoBlocks_eq (h : s.fill.toNat ≤ 63) :
    s.finishTwoBlocks =
      .ok { ({ s with buf := s.finishTwoBuf } : State).dispatchBlock with fseq := true, fill := 0 } := by
  unfold State.finishTwoBlocks
  dsimp only
  rw [State.memWrite_bind (by simp; omega), State.memWrite_bind (by simp; omega)]
  rfl

/-- Everything PAD_FINISH_TWO can do (R73). -/
theorem State.finishTwoBlocks_cases (h : s.finishTwoBlocks = .ok t) :
    s.fill.toNat ≤ 63 ∧
      t = { ({ s with buf := s.finishTwoBuf } : State).dispatchBlock with fseq := true, fill := 0 } := by
  obtain ⟨u, hu, -⟩ := bind_cases h
  have hle : s.fill.toNat ≤ 63 := by have := (State.memWrite_cases hu).1; simp at this; omega
  rw [State.finishTwoBlocks_eq hle] at h
  cases h
  exact ⟨hle, rfl⟩

theorem State.sendLengthBlock_eq (s : State) :
    s.sendLengthBlock = .ok { ({ s with buf := s.lengthBuf } : State).dispatchBlock with fseq := false } := by
  have h1 : 0 + (List.replicate 56 (0 : Byte)).length ≤ 64 := by simp
  have h2 : 56 + (lengthBytes s.alg s.bitlen).length ≤ 64 := by simp
  unfold State.sendLengthBlock
  dsimp only
  rw [State.memWrite_bind h1, State.memWrite_bind h2]
  simp only [State.lengthBuf, State.bitlen]

theorem State.completeBlock_last (h : s.fseq = false) : s.completeBlock = .ok { s with eng := engIdle } := by
  simp [State.completeBlock, h]

theorem State.completeBlock_first (h : s.fseq = true) :
    s.completeBlock = .ok { ({ s with buf := s.lengthBuf } : State).dispatchBlock with fseq := false } := by
  simp [State.completeBlock, h, State.sendLengthBlock_eq]

/-- Everything FINISH can do in a session (R123). -/
theorem State.closeSession_cases (h : s.closeSession = .ok t) :
    (s.fill.toNat ≤ 55 ∧
        t = { ({ s with buf := s.finishOneBuf } : State).dispatchBlock with
          fseq := false, fill := 0, phase := phaseDone }) ∨
      (56 ≤ s.fill.toNat ∧ s.fill.toNat ≤ 63 ∧
        t = { ({ s with buf := s.finishTwoBuf } : State).dispatchBlock with
          fseq := true, fill := 0, phase := phaseDone }) := by
  obtain ⟨u, hu, ht⟩ := bind_cases h
  unfold State.finishBlocks at hu
  split at hu
  · rw [State.finishOneBlock_eq ‹_›] at hu
    cases hu; cases ht
    exact .inl ⟨‹_›, rfl⟩
  · obtain ⟨hle, rfl⟩ := State.finishTwoBlocks_cases hu
    cases ht
    exact .inr ⟨by omega, hle, rfl⟩

theorem State.closeSession_one (h : s.fill.toNat ≤ 55) :
    s.closeSession = .ok { ({ s with buf := s.finishOneBuf } : State).dispatchBlock with
      fseq := false, fill := 0, phase := phaseDone } := by
  simp only [State.closeSession, State.finishBlocks, if_pos h, State.finishOneBlock_eq h, bind, Except.bind]

theorem State.closeSession_two (h : 56 ≤ s.fill.toNat) (h' : s.fill.toNat ≤ 63) :
    s.closeSession = .ok { ({ s with buf := s.finishTwoBuf } : State).dispatchBlock with
      fseq := true, fill := 0, phase := phaseDone } := by
  simp only [State.closeSession, State.finishBlocks, if_neg (show ¬ s.fill.toNat ≤ 55 by omega), State.finishTwoBlocks_eq h', bind,
    Except.bind]

/-! ## The bytes of a finished block -/

theorem getD_zeros (n k : Nat) : (List.replicate n (0 : Byte)).getD k 0 = 0 := by
  rw [List.getD_eq_getElem?_getD, List.getElem?_replicate]
  split <;> rfl

theorem State.read_finishOneBuf (s : State) (h : s.fill.toNat ≤ 55) (a : Nat) :
    s.finishOneBuf.read a =
      if a < s.fill.toNat then s.buf.read a
      else if a = s.fill.toNat then 0x80
      else if a < 56 then 0
      else if a < 64 then (lengthBytes s.alg s.bitlen).getD (a - 56) 0
      else s.buf.read a := by
  unfold State.finishOneBuf
  rw [Memory.read_writeBytes, Memory.read_writeBytes, Memory.read_writeBytes, lengthBytes_length, List.length_replicate]
  simp only [List.length_cons, List.length_nil]
  by_cases h1 : a < s.fill.toNat
  · rw [if_pos h1, if_neg (by omega), if_neg (by omega), if_neg (by omega)]
  · by_cases h2 : a = s.fill.toNat
    · rw [if_neg h1, if_pos h2, if_neg (by omega), if_neg (by omega), if_pos (by omega)]; simp [h2]
    · by_cases h3 : a < 56
      · rw [if_neg h1, if_neg h2, if_pos h3, if_neg (by omega), if_pos (by omega)]
        exact getD_zeros _ _
      · by_cases h4 : a < 64
        · rw [if_neg h1, if_neg h2, if_neg h3, if_pos h4, if_pos (by omega)]
        · rw [if_neg h1, if_neg h2, if_neg h3, if_neg h4, if_neg (by omega), if_neg (by omega), if_neg (by omega)]

theorem State.read_finishTwoBuf (s : State) (h : s.fill.toNat ≤ 63) (a : Nat) :
    s.finishTwoBuf.read a =
      if a < s.fill.toNat then s.buf.read a
      else if a = s.fill.toNat then 0x80
      else if a < 64 then 0
      else s.buf.read a := by
  unfold State.finishTwoBuf
  rw [Memory.read_writeBytes, Memory.read_writeBytes, List.length_replicate]
  simp only [List.length_cons, List.length_nil]
  by_cases h1 : a < s.fill.toNat
  · rw [if_pos h1, if_neg (by omega), if_neg (by omega)]
  · by_cases h2 : a = s.fill.toNat
    · rw [if_neg h1, if_pos h2, if_neg (by omega), if_pos (by omega)]; simp [h2]
    · by_cases h3 : a < 64
      · rw [if_neg h1, if_neg h2, if_pos h3, if_pos (by omega)]
        exact getD_zeros _ _
      · rw [if_neg h1, if_neg h2, if_neg h3, if_neg (by omega), if_neg (by omega)]

theorem State.read_lengthBuf (s : State) (a : Nat) :
    s.lengthBuf.read a =
      if a < 56 then 0
      else if a < 64 then (lengthBytes s.alg s.bitlen).getD (a - 56) 0
      else s.buf.read a := by
  unfold State.lengthBuf
  rw [Memory.read_writeBytes, Memory.read_writeBytes, lengthBytes_length, List.length_replicate]
  by_cases h1 : a < 56
  · rw [if_pos h1, if_neg (by omega), if_pos (by omega)]
    exact getD_zeros _ _
  · by_cases h2 : a < 64
    · rw [if_neg h1, if_pos h2, if_pos (by omega)]
    · rw [if_neg h1, if_neg h2, if_neg (by omega), if_neg (by omega)]

theorem State.wf_finishOneBuf (h : s.fill.toNat ≤ 55) (hw : s.buf.wf = true) : s.finishOneBuf.wf = true :=
  Memory.wf_writeBytes _ _ _ (by simp)
    (Memory.wf_writeBytes _ _ _ (by simp; omega) (Memory.wf_writeBytes _ _ _ (by simp; omega) hw))

theorem State.wf_finishTwoBuf (h : s.fill.toNat ≤ 63) (hw : s.buf.wf = true) : s.finishTwoBuf.wf = true :=
  Memory.wf_writeBytes _ _ _ (by simp; omega) (Memory.wf_writeBytes _ _ _ (by simp; omega) hw)

theorem State.wf_lengthBuf (hw : s.buf.wf = true) : s.lengthBuf.wf = true :=
  Memory.wf_writeBytes _ _ _ (by simp) (Memory.wf_writeBytes _ _ _ (by simp) hw)

end Sys2Proof.Machine
end

