-- ==== Sys2Proof/Laws/Decode.lean ====
section
/-! SUPPORT. The fields of the two encoded words, and what the decoder reads from an engine control word. -/

namespace Sys2Proof

/-! ## Fields -/

@[simp] theorem twWe_mkTw (we : BitVec 1) (slot : Slot) (v : Word) : twWe (mkTw we slot v) = we := by
  apply BitVec.eq_of_getLsbD_eq
  intro j hj
  simp only [twWe, mkTw, BitVec.getLsbD_extractLsb', BitVec.getLsbD_append, hj, decide_true, Bool.true_and]
  rw [if_neg (by omega), if_neg (by omega)]
  congr 1
  omega

@[simp] theorem twSlot_mkTw (we : BitVec 1) (slot : Slot) (v : Word) : twSlot (mkTw we slot v) = slot := by
  apply BitVec.eq_of_getLsbD_eq
  intro j hj
  simp only [twSlot, mkTw, BitVec.getLsbD_extractLsb', BitVec.getLsbD_append, hj, decide_true, Bool.true_and]
  rw [if_neg (by omega), if_pos (by omega)]
  congr 1
  omega

@[simp] theorem twData_mkTw (we : BitVec 1) (slot : Slot) (v : Word) : twData (mkTw we slot v) = v := by
  apply BitVec.eq_of_getLsbD_eq
  intro j hj
  simp only [twData, mkTw, BitVec.getLsbD_extractLsb', BitVec.getLsbD_append, hj, decide_true, Bool.true_and]
  rw [if_pos (by omega)]
  congr 1
  omega

@[simp] theorem mkTw_fields (w : Tw) : mkTw (twWe w) (twSlot w) (twData w) = w := by
  apply BitVec.eq_of_getLsbD_eq
  intro j hj
  simp only [twWe, twSlot, twData, mkTw, BitVec.getLsbD_extractLsb', BitVec.getLsbD_append]
  split
  · simp; intro; omega
  · split
    · simp [show 32 + (j - 32) = j by omega]; intro; omega
    · simp [show 36 + (j - 32 - 4) = j by omega]; intro; omega

@[simp] theorem ecwEng_mkEcw : ∀ (e : BitVec 2) (a : BitVec 1) (i : BitVec 7), ecwEng (mkEcw e a i) = e := by decide

@[simp] theorem ecwAlg_mkEcw : ∀ (e : BitVec 2) (a : BitVec 1) (i : BitVec 7), ecwAlg (mkEcw e a i) = a := by decide

@[simp] theorem ecwStep_mkEcw : ∀ (e : BitVec 2) (a : BitVec 1) (i : BitVec 7), ecwStep (mkEcw e a i) = i := by decide

@[simp] theorem mkEcw_fields : ∀ w : Ecw, mkEcw (ecwEng w) (ecwAlg w) (ecwStep w) = w := by decide

/-! ## What the engine control word of a state decodes to -/

namespace Machine

/-- In RUN the step operation that FSEL selects (R58, R117). -/
theorem decode_run {s : State} (hb : s.broken = none) (he : s.eng = engRun) :
    decode (.ecw s.ecw) = .ok (stepOfFsel s.fsel s.stepNo) := by
  have hs := ((State.broken_eq_none_iff s).mp hb).2.2.1 he
  simp [decode, decodeEcw, State.ecw, State.fsel, he, hs]

/-- In CHAIN the chaining operation that ALG selects (R117). -/
theorem decode_chain {s : State} (he : s.eng = engChain) :
    decode (.ecw s.ecw) = .ok (if s.alg = 0 then .md5Chain s.stepNo else .sha1Chain s.stepNo) := by
  simp only [decode, decodeEcw, State.ecw, he, ecwEng_mkEcw, ecwAlg_mkEcw, ecwStep_mkEcw]
  rw [if_neg (by decide), if_neg (by decide), if_pos trivial]
  split <;> rfl

theorem eng_cases {s : State} (hb : s.broken = none) : s.eng = engIdle ∨ s.eng = engRun ∨ s.eng = engChain := by
  have h3 := ((State.broken_eq_none_iff s).mp hb).1
  revert h3
  generalize s.eng = e
  revert e
  decide

end Machine

end Sys2Proof
end

