-- ==== Sys2Proof/Laws/Engine.lean ====
section
/-! SUPPORT. What dispatch() hands to an engine, and which operation FSEL selects for each step. -/

namespace Sys2Proof.Machine

/-! ## dispatch() -/

theorem State.read_eq_bufBlock (s : State) (a : Nat) (ha : a < 64) : s.buf.read a = s.bufBlock.getD a 0 := by
  simp [State.bufBlock, List.getD_eq_getElem?_getD, ha]

theorem State.loadMd5_words (s : State) : s.loadMd5.mw = leWords s.bufBlock := by
  apply Vector.ext
  intro i hi
  simp only [leWords, Vector.getElem_ofFn, blockByte, State.loadMd5, State.bufLe32]
  interval_cases i <;> simp [State.read_eq_bufBlock]

theorem State.loadSha1_words (s : State) : s.loadSha1.mw = beWords s.bufBlock := by
  apply Vector.ext
  intro i hi
  simp only [beWords, Vector.getElem_ofFn, blockByte, State.loadSha1, State.bufBe32]
  interval_cases i <;> simp [State.read_eq_bufBlock]

/-- The words that dispatch() latches (R71). -/
theorem State.dispatchBlock_words (s : State) : s.dispatchBlock.mw = wordsOf s.alg s.bufBlock := by
  unfold State.dispatchBlock wordsOf
  split
  · exact s.loadMd5_words
  · exact s.loadSha1_words

/-- Everything dispatch() changes: MW, WK, STEP and ENG (R71). -/
theorem State.dispatchBlock_eq (s : State) :
    s.dispatchBlock =
      { s with mw := s.dispatchBlock.mw, wk := s.dispatchBlock.wk, stepNo := 0, eng := engRun } := by
  unfold State.dispatchBlock
  split <;> rfl

theorem State.handedOver_dispatchBlock (s : State) : HandedOver s s.dispatchBlock where
  running := by simp
  first := by simp
  words := by rw [State.dispatchBlock_words]; simp [State.bufBlock]
  working := by unfold State.dispatchBlock; split <;> exact ⟨rfl, rfl, rfl, rfl⟩
  working4 := by unfold State.dispatchBlock; split <;> simp [State.loadMd5, State.loadSha1]

/-- Being handed over is a matter of ENG, STEP, MW, WK and BUF after, and of HS, ALG and WK before. -/
theorem HandedOver.congr {s t s' t' : State} (h : HandedOver s t) (hs : s'.hs = s.hs) (ha : s'.alg = s.alg)
    (hw : s'.wk = s.wk) (te : t'.eng = t.eng) (tn : t'.stepNo = t.stepNo) (tm : t'.mw = t.mw) (tw : t'.wk = t.wk)
    (tb : t'.buf = t.buf) : HandedOver s' t' where
  running := te.trans h.running
  first := tn.trans h.first
  words := by rw [tm, h.words, ha, State.bufBlock, State.bufBlock, tb]
  working := by rw [tw, hs]; exact h.working
  working4 := by rw [tw, hs, ha, hw]; exact h.working4

/-! ## FSEL (R58) -/

theorem fselOf_md5 : ∀ i : BitVec 7,
    (i.toNat < 16 → fselOf 0 i = 0b000) ∧ (16 ≤ i.toNat → i.toNat < 32 → fselOf 0 i = 0b001) ∧
      (32 ≤ i.toNat → i.toNat < 48 → fselOf 0 i = 0b010) ∧ (48 ≤ i.toNat → i.toNat < 64 → fselOf 0 i = 0b011) := by
  decide

theorem fselOf_sha1 : ∀ t : BitVec 7,
    (t.toNat < 20 → fselOf 1 t = 0b100) ∧ (20 ≤ t.toNat → t.toNat < 40 → fselOf 1 t = 0b101) ∧
      (40 ≤ t.toNat → t.toNat < 60 → fselOf 1 t = 0b110) ∧ (60 ≤ t.toNat → t.toNat < 80 → fselOf 1 t = 0b111) := by
  decide

end Sys2Proof.Machine
end

