-- ==== Sys2Proof/Laws/Exec.lean ====
section
/-! SUPPORT. For each instruction, the shared operation that its meaning is. -/

namespace Sys2Proof.Machine

theorem exec_nop (s : State) :
    exec .nop s = hostWrite (mkTw 1 0 0) (fun s => .ok s) s := rfl

theorem exec_initMd5 (s : State) :
    exec .initMd5 s = hostWrite (mkTw 1 0 1) (fun s => .ok (s.openSession 0 md5Initial)) s := rfl

theorem exec_initSha1 (s : State) :
    exec .initSha1 s = hostWrite (mkTw 1 0 2) (fun s => .ok (s.openSession 1 sha1Initial)) s := rfl

theorem exec_finish (s : State) :
    exec .finish s = hostWrite (mkTw 1 0 3) (State.inSession State.closeSession) s := rfl

theorem exec_clearErr (s : State) :
    exec .clearErr s = hostWrite (mkTw 1 0 4) (fun s => .ok s.clearHostError) s := rfl

theorem exec_cmdIllegal (v : Word) (s : State) :
    exec (.cmdIllegal v) s = hostWrite (mkTw 1 0 v) (fun s => .ok (s.raiseHostError errIllegalCmd)) s := rfl

theorem exec_dataB (v : Word) (s : State) :
    exec (.dataB v) s = hostWrite (mkTw 1 2 v) (State.inSession (State.appendBytes [wordByte v 0])) s := rfl

theorem exec_dataW (v : Word) (s : State) :
    exec (.dataW v) s = hostWrite (mkTw 1 3 v) (State.inSession (State.appendBytes (le32bytes v))) s := rfl

theorem exec_wrBad (slot : Slot) (v : Word) (s : State) :
    exec (.wrBad slot v) s = hostWrite (mkTw 1 slot v) (fun s => .ok (s.raiseHostError errBadAccess)) s := rfl

theorem exec_rdStatus (v : Word) (s : State) :
    exec (.rdStatus v) s = hostRead State.statusWord s := rfl

theorem exec_rdLenLo (v : Word) (s : State) :
    exec (.rdLenLo v) s = hostRead State.lenLo s := rfl

theorem exec_rdLenHi (v : Word) (s : State) :
    exec (.rdLenHi v) s = hostRead State.lenHi s := rfl

theorem exec_rdDigest0 (v : Word) (s : State) :
    exec (.rdDigest0 v) s = hostRead (fun s => s.digestWord 0) s := rfl

theorem exec_rdDigest1 (v : Word) (s : State) :
    exec (.rdDigest1 v) s = hostRead (fun s => s.digestWord 1) s := rfl

theorem exec_rdDigest2 (v : Word) (s : State) :
    exec (.rdDigest2 v) s = hostRead (fun s => s.digestWord 2) s := rfl

theorem exec_rdDigest3 (v : Word) (s : State) :
    exec (.rdDigest3 v) s = hostRead (fun s => s.digestWord 3) s := rfl

theorem exec_rdDigest4 (v : Word) (s : State) :
    exec (.rdDigest4 v) s = hostRead (fun s => s.digestWord 4) s := rfl

theorem exec_rdZero (slot : Slot) (v : Word) (s : State) :
    exec (.rdZero slot v) s = hostRead (fun _ => 0) s := rfl

theorem exec_md5StepF (i : BitVec 7) (s : State) :
    exec (.md5StepF i) s = whenTriggered (stepTriggered 0b000 i) (fun s => .ok (s.md5Step md5F)) s := rfl

theorem exec_md5StepG (i : BitVec 7) (s : State) :
    exec (.md5StepG i) s = whenTriggered (stepTriggered 0b001 i) (fun s => .ok (s.md5Step md5G)) s := rfl

theorem exec_md5StepH (i : BitVec 7) (s : State) :
    exec (.md5StepH i) s = whenTriggered (stepTriggered 0b010 i) (fun s => .ok (s.md5Step md5H)) s := rfl

theorem exec_md5StepI (i : BitVec 7) (s : State) :
    exec (.md5StepI i) s = whenTriggered (stepTriggered 0b011 i) (fun s => .ok (s.md5Step md5I)) s := rfl

theorem exec_sha1StepCh (t : BitVec 7) (s : State) :
    exec (.sha1StepCh t) s = whenTriggered (stepTriggered 0b100 t) (fun s => .ok (s.sha1Step sha1Ch sha1K0)) s := rfl

theorem exec_sha1StepPar1 (t : BitVec 7) (s : State) :
    exec (.sha1StepPar1 t) s = whenTriggered (stepTriggered 0b101 t) (fun s => .ok (s.sha1Step sha1Parity sha1K1)) s := rfl

theorem exec_sha1StepMaj (t : BitVec 7) (s : State) :
    exec (.sha1StepMaj t) s = whenTriggered (stepTriggered 0b110 t) (fun s => .ok (s.sha1Step sha1Maj sha1K2)) s := rfl

theorem exec_sha1StepPar2 (t : BitVec 7) (s : State) :
    exec (.sha1StepPar2 t) s = whenTriggered (stepTriggered 0b111 t) (fun s => .ok (s.sha1Step sha1Parity sha1K3)) s := rfl

theorem exec_sha1Sched (t : BitVec 7) (s : State) :
    exec (.sha1Sched t) s = whenTriggered (fun s => s.eng = engRun && s.alg = 1 && s.stepNo = t) (fun s => .ok s.sha1Sched) s := rfl

theorem exec_md5Chain (i : BitVec 7) (s : State) :
    exec (.md5Chain i) s = whenTriggered (chainTriggered 0 i) (fun s => s.chainMd5.completeBlock) s := rfl

theorem exec_sha1Chain (t : BitVec 7) (s : State) :
    exec (.sha1Chain t) s = whenTriggered (chainTriggered 1 t) (fun s => s.chainSha1.completeBlock) s := rfl

theorem exec_padAppend (b : Byte) (s : State) :
    exec (.padAppend b) s = whenTriggered (fun s => s.phase = phaseAbsorb) (fun s => s.appendByte b) s := rfl

theorem exec_dispatch (s : State) :
    exec .dispatch s = whenTriggered (fun s => s.eng ≠ engRun) (fun s => .ok s.dispatchBlock) s := rfl

theorem exec_md5Load (s : State) :
    exec .md5Load s = whenTriggered (fun s => s.alg = 0 && s.eng ≠ engRun) (fun s => .ok s.loadMd5) s := rfl

theorem exec_sha1Load (s : State) :
    exec .sha1Load s = whenTriggered (fun s => s.alg = 1 && s.eng ≠ engRun) (fun s => .ok s.loadSha1) s := rfl

theorem exec_padFinishOne (s : State) :
    exec .padFinishOne s = whenTriggered (fun s => s.phase = phaseAbsorb && s.fill.toNat ≤ 55) (fun s => s.finishOneBlock) s := rfl

theorem exec_padFinishTwo (s : State) :
    exec .padFinishTwo s = whenTriggered (fun s => s.phase = phaseAbsorb && 56 ≤ s.fill.toNat) (fun s => s.finishTwoBlocks) s := rfl

theorem exec_padLenblock (s : State) :
    exec .padLenblock s = whenTriggered (fun s => s.eng = engChain && s.fseq) (fun s => s.sendLengthBlock) s := rfl

end Sys2Proof.Machine
end

