-- ==== Sys2Proof/Laws/Step.lean ====
section
/-! SUPPORT. Which transition a step takes, and what it is then. -/

namespace Sys2Proof.Machine

variable {s t : State}

@[simp] theorem State.takeTurn_ecw (s : State) : s.takeTurn.ecw = s.ecw := rfl

/-- A reset on the schedule comes first (R156). -/
theorem nextTurn_reset {keeps : Bool} (h : s.sched.head? = some (.reset keeps)) : s.nextTurn = .reset keeps := by
  unfold State.nextTurn
  cases hs : s.sched with
  | nil => simp [hs] at h
  | cons u rest => rw [hs] at h; cases h; rfl

/-- With the engine idle only the host can move (R117). -/
theorem nextTurn_idle (hn : ∀ keeps, s.sched.head? ≠ some (.reset keeps)) (he : s.eng = engIdle) :
    s.nextTurn = .host := by
  unfold State.nextTurn
  cases hs : s.sched with
  | nil => exact if_pos he
  | cons u rest =>
    cases u with
    | reset keeps => exact absurd (by simp [hs]) (hn keeps)
    | host => simp [he]
    | engine => exact if_pos he

/-- A read is performed on the host's turn, whatever the engine does (R116). -/
theorem nextTurn_read (hr : s.readPending = true) (hs : s.sched.head? = some .host) : s.nextTurn = .host := by
  unfold State.nextTurn
  cases hs' : s.sched with
  | nil => simp [hs'] at hs
  | cons u rest => rw [hs'] at hs; cases hs; simp [hr]

/-- With the engine busy and no read performed, the engine moves (R116, R117). -/
theorem nextTurn_busy (hn : ∀ keeps, s.sched.head? ≠ some (.reset keeps)) (he : s.eng ≠ engIdle)
    (hr : s.sched.head? = some .host → s.readPending = false) : s.nextTurn = .engine := by
  unfold State.nextTurn
  cases hs : s.sched with
  | nil => exact if_neg he
  | cons u rest =>
    cases u with
    | reset keeps => exact absurd (by simp [hs]) (hn keeps)
    | host =>
      have := hr (by simp [hs])
      simp only [decide_eq_false he, this]; rfl
    | engine => exact if_neg he

theorem hostTransition_nil (hq : s.hostq = []) : hostTransition s = .next s.takeTurn := by
  unfold hostTransition
  rw [hq]

theorem hostTransition_cons {tw : Tw} {rest : List Tw} (hq : s.hostq = tw :: rest) :
    hostTransition s = exec (decodeTw tw) s.takeTransaction := by
  unfold hostTransition
  rw [hq]
  rfl

theorem engineTransition_run (hb : s.broken = none) (he : s.eng = engRun) :
    engineTransition s = exec (stepOfFsel s.fsel s.stepNo) s.takeTurn := by
  unfold engineTransition
  rw [decode_run hb he]

theorem engineTransition_chain (he : s.eng = engChain) :
    engineTransition s = exec (if s.alg = 0 then .md5Chain s.stepNo else .sha1Chain s.stepNo) s.takeTurn := by
  unfold engineTransition
  rw [decode_chain he]

/-- Everything a step can do: the reset transition, the host's, or the engine's (R119, R156). -/
theorem step_cases (h : step s = .next t) :
    s.broken = none ∧
      ((∃ keeps, s.sched.head? = some (.reset keeps) ∧ t = s.takeReset keeps) ∨
        (s.nextTurn = .host ∧ hostTransition s = .next t) ∨
        (s.nextTurn = .engine ∧ s.eng ≠ engIdle ∧ engineTransition s = .next t)) := by
  obtain ⟨hb, h⟩ := State.checked_cases h
  refine ⟨hb, ?_⟩
  by_cases hr : ∃ keeps, s.sched.head? = some (.reset keeps)
  · obtain ⟨keeps, hr⟩ := hr
    rw [nextTurn_reset hr] at h
    cases h
    exact .inl ⟨keeps, hr, rfl⟩
  · have hn : ∀ keeps, s.sched.head? ≠ some (.reset keeps) := fun keeps hk => hr ⟨keeps, hk⟩
    refine .inr ?_
    by_cases he : s.eng = engIdle
    · rw [nextTurn_idle hn he] at h
      exact .inl ⟨nextTurn_idle hn he, h⟩
    · by_cases hq : s.sched.head? = some .host ∧ s.readPending = true
      · rw [nextTurn_read hq.2 hq.1] at h
        exact .inl ⟨nextTurn_read hq.2 hq.1, h⟩
      · have hm := nextTurn_busy hn he (fun hs => by simpa [hs] using hq)
        rw [hm] at h
        exact .inr ⟨hm, he, h⟩

/-- A step from a state that shows no broken invariant, on each turn. -/
theorem step_reset (hb : s.broken = none) {keeps : Bool} (h : s.nextTurn = .reset keeps) :
    step s = .next (s.takeReset keeps) := by
  rw [step, State.checked_ok hb, h]

theorem step_host (hb : s.broken = none) (h : s.nextTurn = .host) : step s = hostTransition s := by
  rw [step, State.checked_ok hb, h]

theorem step_engine (hb : s.broken = none) (h : s.nextTurn = .engine) : step s = engineTransition s := by
  rw [step, State.checked_ok hb, h]

/-- A read answers with some word and changes nothing else (R47, R116). -/
theorem exec_read {tw : Tw} (hb : s.broken = none) (hr : isRead tw = true) :
    ∃ v, exec (decodeTw tw) s = .next { s with resp := some v } := by
  have hw : twWe tw ≠ 1 := by
    have : twWe tw = 0 := of_decide_eq_true hr
    simp [this]
  rw [decodeTw, if_neg hw, decodeRead]
  repeat' split
  all_goals
    simp only [exec_rdStatus, exec_rdLenLo, exec_rdLenHi, exec_rdDigest0, exec_rdDigest1, exec_rdDigest2, exec_rdDigest3,
      exec_rdDigest4, exec_rdZero]
    exact ⟨_, hostRead_ok _ hb⟩

/-- The host's turn over a busy engine is a read: its word leaves the bus, and nothing else but the response and the
schedule changes (R116, R119). -/
theorem step_read_while_busy (hb : s.broken = none) (he : s.eng ≠ engIdle) (h : s.nextTurn = .host) :
    ∃ tw rest v, s.hostq = tw :: rest ∧ isRead tw = true ∧
      step s = .next { s with hostq := rest, sched := s.sched.tail, resp := some v } := by
  have hr : s.readPending = true := by
    unfold State.nextTurn at h
    split at h <;> simp_all
  unfold State.readPending at hr
  split at hr
  · simp at hr
  · next tw rest hq =>
    obtain ⟨v, hv⟩ := exec_read (s := s.takeTransaction) hb hr
    refine ⟨tw, rest, v, hq, hr, ?_⟩
    rw [step_host hb h, hostTransition_cons hq, hv]
    simp [State.takeTransaction, hq]

end Sys2Proof.Machine
end

