-- ==== Sys2Proof/Tests/Slice0.lean ====
section
/-! SUPPORT. Tests of the model against the words, examples and vectors of the spec, and a witness for every statement
that has hypotheses. Expected values are the spec's (the place is named), never the model's own answers. -/

namespace Sys2Proof.Tests

open Sys2Proof.Machine

/-! ## Helpers -/

/-- The outcome is a next state with the property. -/
def after (r : Result) (p : State → Bool) : Bool :=
  match r with
  | .next s => p s
  | .fault _ => false
  | .refused _ => false

/-- The outcome is the fault. -/
def faults (r : Result) (f : Fault) : Bool :=
  match r with
  | .next _ => false
  | .fault g => g = f
  | .refused _ => false

/-- An open session with `fill` bytes of 0x61 in BUF. -/
def session (alg : BitVec 1) (fill : BitVec 7) : State :=
  { State.reset with
    hs := if alg = 0 then md5Initial else sha1Initial
    alg := alg, phase := phaseAbsorb, fill := fill, len := fill.setWidth 64
    buf := (List.range fill.toNat).map fun a => (a, 0x61) }

/-- The engine at a step, WK as in spec/95_test_vectors.md section 2.4. -/
def running (alg : BitVec 1) (step : BitVec 7) (mw : Vector Word 16) : State :=
  { State.reset with
    alg := alg, phase := phaseAbsorb, eng := engRun, stepNo := step, mw := mw
    wk := #v[0x01234567, 0x89ABCDEF, 0xFEDCBA98, 0x76543210, 0xF0E1D2C3] }

/-- The message words of pad("abc") as MD5 reads them (95 section 2.3). -/
def md5Abc : Vector Word 16 := #v[0x80636261, 0, 0, 0, 0, 0, 0, 0, 0, 0, 0, 0, 0, 0, 0x18, 0]

/-- The message words of pad("abc") as SHA-1 reads them (95 section 2.3). -/
def sha1Abc : Vector Word 16 := #v[0x61626380, 0, 0, 0, 0, 0, 0, 0, 0, 0, 0, 0, 0, 0, 0, 0x18]

/-- A window from which step t, from 16 on, produces the schedule word w: w turned right by one in MW[t mod 16]. -/
def windowFor (t : Nat) (w : Word) : Vector Word 16 :=
  (Vector.replicate 16 0).set (Fin.ofNat 16 t) (w >>> 1 ||| w <<< 31)

/-- The engine at a chaining. -/
def chaining (alg : BitVec 1) (fseq : Bool) : State :=
  { State.reset with
    alg := alg, phase := if fseq then phaseDone else phaseAbsorb, eng := engChain, fseq := fseq
    stepNo := if alg = 0 then 64 else 80
    hs := if alg = 0 then md5Initial else sha1Initial }

/-! ## Well-formedness: ill-formed terms are refused -/

theorem test_cmdIllegal_legal_word_refused : (Instr.cmdIllegal 4).wellFormed = false := by decide
theorem test_wrBad_data_slot_refused : (Instr.wrBad 3 0).wellFormed = false := by decide
theorem test_wrBad_command_slot_refused : (Instr.wrBad 0 0).wellFormed = false := by decide
theorem test_rdZero_status_slot_refused : (Instr.rdZero 1 0).wellFormed = false := by decide
theorem test_rdZero_digest_slot_refused : (Instr.rdZero 12 0).wellFormed = false := by decide
theorem test_md5Step_ranges_refused :
    (Instr.md5StepF 16).wellFormed = false ∧ (Instr.md5StepG 15).wellFormed = false ∧
      (Instr.md5StepH 48).wellFormed = false ∧ (Instr.md5StepI 64).wellFormed = false := by decide
theorem test_sha1Step_ranges_refused :
    (Instr.sha1StepCh 20).wellFormed = false ∧ (Instr.sha1StepPar1 19).wellFormed = false ∧
      (Instr.sha1StepMaj 60).wellFormed = false ∧ (Instr.sha1StepPar2 80).wellFormed = false := by decide
theorem test_sha1Sched_range_refused : (Instr.sha1Sched 15).wellFormed = false := by decide

/-! ## Decoding: words written out from R54, R55, R57 (WE, SLOT, DATA) and R58 (ENG, ALG, STEP) -/

theorem test_decode_commands :
    decode (.tw (1#1 ++ 0x0#4 ++ 0x00000000#32)) = .ok .nop ∧
      decode (.tw (1#1 ++ 0x0#4 ++ 0x00000001#32)) = .ok .initMd5 ∧
      decode (.tw (1#1 ++ 0x0#4 ++ 0x00000002#32)) = .ok .initSha1 ∧
      decode (.tw (1#1 ++ 0x0#4 ++ 0x00000003#32)) = .ok .finish ∧
      decode (.tw (1#1 ++ 0x0#4 ++ 0x00000004#32)) = .ok .clearErr := by decide
theorem test_decode_illegal_commands :
    decode (.tw (1#1 ++ 0x0#4 ++ 0x00000005#32)) = .ok (.cmdIllegal 5) ∧
      decode (.tw (1#1 ++ 0x0#4 ++ 0x80000003#32)) = .ok (.cmdIllegal 0x80000003) := by decide
theorem test_decode_data :
    decode (.tw (1#1 ++ 0x2#4 ++ 0xFFFFFF61#32)) = .ok (.dataB 0xFFFFFF61) ∧
      decode (.tw (1#1 ++ 0x3#4 ++ 0x64636261#32)) = .ok (.dataW 0x64636261) := by decide
theorem test_decode_bad_writes :
    decode (.tw (1#1 ++ 0x1#4 ++ 0x00000000#32)) = .ok (.wrBad 1 0) ∧
      decode (.tw (1#1 ++ 0xF#4 ++ 0x12345678#32)) = .ok (.wrBad 15 0x12345678) := by decide
theorem test_decode_status_and_length_reads :
    decode (.tw (0#1 ++ 0x1#4 ++ 0x00000000#32)) = .ok (.rdStatus 0) ∧
      decode (.tw (0#1 ++ 0x4#4 ++ 0x00000000#32)) = .ok (.rdLenLo 0) ∧
      decode (.tw (0#1 ++ 0x5#4 ++ 0x00000000#32)) = .ok (.rdLenHi 0) := by decide
theorem test_decode_digest_reads :
    decode (.tw (0#1 ++ 0x8#4 ++ 0x00000000#32)) = .ok (.rdDigest0 0) ∧
      decode (.tw (0#1 ++ 0x9#4 ++ 0x00000000#32)) = .ok (.rdDigest1 0) ∧
      decode (.tw (0#1 ++ 0xA#4 ++ 0x00000000#32)) = .ok (.rdDigest2 0) ∧
      decode (.tw (0#1 ++ 0xB#4 ++ 0x00000000#32)) = .ok (.rdDigest3 0) ∧
      decode (.tw (0#1 ++ 0xC#4 ++ 0x00000000#32)) = .ok (.rdDigest4 0) := by decide
theorem test_decode_zero_reads :
    decode (.tw (0#1 ++ 0x0#4 ++ 0x00000001#32)) = .ok (.rdZero 0 1) ∧
      decode (.tw (0#1 ++ 0x7#4 ++ 0x00000000#32)) = .ok (.rdZero 7 0) ∧
      decode (.tw (0#1 ++ 0xD#4 ++ 0x00000000#32)) = .ok (.rdZero 13 0) := by decide
theorem test_decode_md5_steps :
    decode (.ecw (1#2 ++ 0#1 ++ 0b0001111#7)) = .ok (.md5StepF 15) ∧
      decode (.ecw (1#2 ++ 0#1 ++ 0b0010000#7)) = .ok (.md5StepG 16) ∧
      decode (.ecw (1#2 ++ 0#1 ++ 0b0100000#7)) = .ok (.md5StepH 32) ∧
      decode (.ecw (1#2 ++ 0#1 ++ 0b0111111#7)) = .ok (.md5StepI 63) := by decide
theorem test_decode_sha1_steps :
    decode (.ecw (1#2 ++ 1#1 ++ 0b0010011#7)) = .ok (.sha1StepCh 19) ∧
      decode (.ecw (1#2 ++ 1#1 ++ 0b0010100#7)) = .ok (.sha1StepPar1 20) ∧
      decode (.ecw (1#2 ++ 1#1 ++ 0b0111011#7)) = .ok (.sha1StepMaj 59) ∧
      decode (.ecw (1#2 ++ 1#1 ++ 0b0111100#7)) = .ok (.sha1StepPar2 60) := by decide
theorem test_decode_chains :
    decode (.ecw (2#2 ++ 0#1 ++ 64#7)) = .ok (.md5Chain 64) ∧
      decode (.ecw (2#2 ++ 1#1 ++ 80#7)) = .ok (.sha1Chain 80) := by decide
theorem test_decode_no_instruction :
    decode (.ecw 0x000) = .error .engineIdle ∧ decode (.ecw 0x140) = .error .stepOutOfRange ∧
      decode (.ecw 0x1D0) = .error .stepOutOfRange ∧ decode (.ecw 0x300) = .error .engineReserved := by decide
theorem test_decodeTableWord :
    decodeTableWord 40 0x1000000001 = some .initMd5 ∧ decodeTableWord 40 0x2000000001 = none ∧
      decodeTableWord 16 0x1C0 = some (.sha1StepPar2 64) ∧ decodeTableWord 16 0x400 = none := by decide

/-- The word of an SHA1_SCHED row is the word of the step it belongs to (R58; log 11). -/
theorem test_encode_sha1Sched : encode (.sha1Sched 16) = encode (.sha1StepCh 16) := by decide

/-! ## Words, round functions, operands (95 sections 2.1, 2.2, 2.3; 41 R87) -/

theorem test_rotl32 :
    rotl32 0x80000001 1 = 0x00000003 ∧ rotl32 0x12345678 28 = 0x81234567 ∧ rotl32 0xEFCDAB89 30 = 0x7BF36AE2 ∧
      rotl32 0xDEADBEEF 0 = 0xDEADBEEF ∧ rotl32 0xDEADBEEF 32 = 0xDEADBEEF := by decide
theorem test_round_functions :
    md5F 0x12345678 0x9ABCDEF0 0x0FEDCBA9 = 0x1FFDDFF1 ∧ md5G 0x12345678 0x9ABCDEF0 0x0FEDCBA9 = 0x92345678 ∧
      md5H 0x12345678 0x9ABCDEF0 0x0FEDCBA9 = 0x87654321 ∧ md5I 0x12345678 0x9ABCDEF0 0x0FEDCBA9 = 0x688AA88E := by
  decide
theorem test_band_functions :
    sha1Ch 0x12345678 0x9ABCDEF0 0x0FEDCBA9 = 0x1FFDDFF1 ∧
      sha1Parity 0x12345678 0x9ABCDEF0 0x0FEDCBA9 = 0x87654321 ∧
      sha1Maj 0x12345678 0x9ABCDEF0 0x0FEDCBA9 = 0x1ABCDEF8 := by decide
theorem test_md5_constants :
    md5Constant 0 = 0xD76AA478 ∧ md5Constant 15 = 0x49B40821 ∧ md5Constant 16 = 0xF61E2562 ∧
      md5Constant 31 = 0x8D2A4C8A ∧ md5Constant 32 = 0xFFFA3942 ∧ md5Constant 47 = 0xC4AC5665 ∧
      md5Constant 48 = 0xF4292244 ∧ md5Constant 63 = 0xEB86D391 := by decide
theorem test_zero_counts :
    zeroCount 0 = 55 ∧ zeroCount 55 = 0 ∧ zeroCount 56 = 63 ∧ zeroCount 64 = 55 ∧ padZeroBits 447 = 0 ∧
      padZeroBits 448 = 511 := by decide
theorem test_length_field :
    lengthBytes 0 (messageBits 56) = [0xC0, 0x01, 0, 0, 0, 0, 0, 0] ∧
      lengthBytes 1 (messageBits 2305843009213693951) = [0xFF, 0xFF, 0xFF, 0xFF, 0xFF, 0xFF, 0xFF, 0xF8] := by decide
theorem test_absorb : assemble (.absorb [0x61, 0x62, 0x63, 0x64, 0x65]) = [0x1364636261, 0x1200000065] := by decide

/-! ## Memory -/

theorem test_write_of_zero_drops_the_entry : Memory.write [(3, 7), (5, 1)] 3 0 = [(5, 1)] := by decide
theorem test_write_keeps_the_order : Memory.write [(3, 7), (9, 1)] 5 2 = [(3, 7), (5, 2), (9, 1)] := by decide

/-! ## Commands, data writes, bad writes (43; 95 section 2.8) -/

theorem test_nop : after (exec .nop (session 0 1)) (fun s => s.statusWord = 0x00011000 && s.len = 1) = true := by decide
theorem test_initMd5 : after (exec .initMd5 (session 1 5)) (fun s =>
    s.statusWord = 0x00001000 && s.hs = md5Initial && s.len = 0) = true := by decide
theorem test_initSha1 : after (exec .initSha1 State.reset) (fun s =>
    s.statusWord = 0x00001100 && s.hs[4] = 0xC3D2E1F0) = true := by decide
theorem test_finish_empty_md5 : after (exec .finish (session 0 0)) (fun s =>
    s.eng = engRun && s.phase = phaseDone && s.mw[0] = 0x80 && s.mw[14] = 0 && !s.fseq) = true := by decide
theorem test_finish_outside_session : after (exec .finish State.reset) (fun s =>
    s.statusWord = 0x00000024) = true := by decide
theorem test_clearErr : after (exec .clearErr { State.reset with err := true, errcode := 2 }) (fun s =>
    s.statusWord = 0) = true := by decide
theorem test_cmdIllegal : after (exec (.cmdIllegal 0x11) State.reset) (fun s => s.statusWord = 0x00000014) = true := by
  decide
theorem test_cmdIllegal_keeps_first_error :
    after (exec (.cmdIllegal 5) { State.reset with err := true, errcode := 2 }) (fun s =>
      s.statusWord = 0x00000024) = true := by decide
theorem test_dataB : after (exec (.dataB 0xFFFFFF61) (session 0 0)) (fun s =>
    s.statusWord = 0x00011000 && s.buf.read 0 = 0x61) = true := by decide
theorem test_dataB_outside_session : after (exec (.dataB 0x61) State.reset) (fun s =>
    s.statusWord = 0x00000024 && s.len = 0) = true := by decide
theorem test_dataW_straddles_the_block : after (exec (.dataW 0x64636261) (session 0 62)) (fun s =>
    s.fill = 2 && s.len = 66 && s.eng = engRun && s.mw[15] = 0x62616161 && s.buf.read 0 = 0x63 && s.buf.read 1 = 0x64)
      = true := by decide
theorem test_wrBad : after (exec (.wrBad 8 0) (session 0 0)) (fun s =>
    s.statusWord = 0x00001034 && s.hs[0] = 0x67452301) = true := by decide
theorem test_write_waits : after (exec (.dataB 0x61) (running 0 3 md5Abc)) (fun s =>
    s = { running 0 3 md5Abc with hostq := [0x1200000061] }) = true := by decide

/-! ## Reads (43; 95 section 2.8) -/

theorem test_rdStatus : after (exec (.rdStatus 0) (session 0 3)) (fun s => s.resp = some 0x00031000) = true := by decide
theorem test_rdStatus_busy : after (exec (.rdStatus 0) { running 1 3 sha1Abc with phase := phaseDone }) (fun s =>
    s.resp = some 0x00002101) = true := by decide
theorem test_rdLenLo : after (exec (.rdLenLo 0) { State.reset with len := 0x0123456789ABCDEF }) (fun s =>
    s.resp = some 0x89ABCDEF) = true := by decide
theorem test_rdLenHi : after (exec (.rdLenHi 0) { State.reset with len := 0x0123456789ABCDEF }) (fun s =>
    s.resp = some 0x01234567) = true := by decide
theorem test_rdDigest0 : after (exec (.rdDigest0 0) (session 1 0)) (fun s => s.resp = some 0x67452301) = true := by
  decide
theorem test_rdDigest1 : after (exec (.rdDigest1 0) (session 1 0)) (fun s => s.resp = some 0xEFCDAB89) = true := by
  decide
theorem test_rdDigest2 : after (exec (.rdDigest2 0) (session 1 0)) (fun s => s.resp = some 0x98BADCFE) = true := by
  decide
theorem test_rdDigest3 : after (exec (.rdDigest3 0) (session 1 0)) (fun s => s.resp = some 0x10325476) = true := by
  decide
theorem test_rdDigest4 : after (exec (.rdDigest4 0) (session 1 0)) (fun s => s.resp = some 0xC3D2E1F0) = true := by
  decide
theorem test_rdZero : after (exec (.rdZero 13 0) (session 1 0)) (fun s => s.resp = some 0) = true := by decide

/-! ## Engine steps (95 section 2.4) -/

theorem test_md5StepF : after (exec (.md5StepF 0) (running 0 0 md5Abc)) (fun s =>
    s.wk = #v[0x76543210, 0x70AF3A1A, 0x89ABCDEF, 0xFEDCBA98, 0xF0E1D2C3] && s.stepNo = 1) = true := by decide
theorem test_md5StepG : after (exec (.md5StepG 31) (running 0 31 md5Abc)) (fun s =>
    s.wk = #v[0x76543210, 0x313D3B50, 0x89ABCDEF, 0xFEDCBA98, 0xF0E1D2C3]) = true := by decide
theorem test_md5StepH : after (exec (.md5StepH 32) (running 0 32 md5Abc)) (fun s =>
    s.wk = #v[0x76543210, 0xADB80EEF, 0x89ABCDEF, 0xFEDCBA98, 0xF0E1D2C3]) = true := by decide
theorem test_md5StepI : after (exec (.md5StepI 48) (running 0 48 md5Abc)) (fun s =>
    s.wk = #v[0x76543210, 0xD37C2EEA, 0x89ABCDEF, 0xFEDCBA98, 0xF0E1D2C3] && s.eng = engRun) = true := by decide
theorem test_md5StepI_last : after (exec (.md5StepI 63) (running 0 63 md5Abc)) (fun s =>
    s.wk = #v[0x76543210, 0x97985221, 0x89ABCDEF, 0xFEDCBA98, 0xF0E1D2C3] && s.eng = engChain && s.stepNo = 64)
      = true := by decide
theorem test_sha1StepCh : after (exec (.sha1StepCh 0) (running 1 0 sha1Abc)) (fun s =>
    s.wk = #v[0xD00C1754, 0x01234567, 0xE26AF37B, 0xFEDCBA98, 0x76543210] && s.mw = sha1Abc) = true := by decide
theorem test_sha1StepCh_scheduled : after (exec (.sha1StepCh 19) (running 1 19 (windowFor 19 0x85898E01))) (fun s =>
    s.wk = #v[0xF43341D5, 0x01234567, 0xE26AF37B, 0xFEDCBA98, 0x76543210] && s.mw[3] = 0x85898E01) = true := by decide
theorem test_sha1StepPar1 : after (exec (.sha1StepPar1 39) (running 1 39 (windowFor 39 0x000018C0))) (fun s =>
    s.wk = #v[0x8547C96B, 0x01234567, 0xE26AF37B, 0xFEDCBA98, 0x76543210]) = true := by decide
theorem test_sha1StepMaj : after (exec (.sha1StepMaj 40) (running 1 40 (windowFor 40 0xD2E138C4))) (fun s =>
    s.wk = #v[0x76242FDB, 0x01234567, 0xE26AF37B, 0xFEDCBA98, 0x76543210]) = true := by decide
theorem test_sha1StepPar2 : after (exec (.sha1StepPar2 79) (running 1 79 (windowFor 79 0x822E0879))) (fun s =>
    s.wk = #v[0x62FE8F59, 0x01234567, 0xE26AF37B, 0xFEDCBA98, 0x76543210] && s.eng = engChain && s.stepNo = 80)
      = true := by decide
/-- W[16] of pad("abc") is 0xC2C4C700 (42 R101). -/
theorem test_sha1Sched : after (exec (.sha1Sched 16) (running 1 16 sha1Abc)) (fun s =>
    s.mw[0] = 0xC2C4C700 && s.mw[15] = 0x18 && s.stepNo = 16) = true := by decide
/-- The chaining of pad("") (41 R94). -/
theorem test_md5Chain :
    after (exec (.md5Chain 64) { chaining 0 false with wk := #v[0x7246FAD3, 0x14E45506, 0xFF4EA3EB, 0x6E10A476, 1] })
      (fun s => s.hs = #v[0xD98C1DD4, 0x04B2008F, 0x980980E9, 0x7E42F8EC, 0] && s.eng = engIdle) = true := by decide
/-- The chaining of pad("abc") (42 R112). -/
theorem test_sha1Chain :
    after (exec (.sha1Chain 80)
      { chaining 1 false with wk := #v[0x42541B35, 0x5738D5E1, 0x21834873, 0x681E6DF6, 0xD8FDF6AD] })
      (fun s => s.hs = #v[0xA9993E36, 0x4706816A, 0xBA3E2571, 0x7850C26C, 0x9CD0D89D] && s.eng = engIdle) = true := by
  decide

/-! ## Micro-operations (40) -/

theorem test_padAppend : after (exec (.padAppend 0x63) (session 0 2)) (fun s =>
    s.buf.read 2 = 0x63 && s.fill = 3 && s.len = 3 && s.eng = engIdle) = true := by decide
theorem test_padAppend_fills_the_block : after (exec (.padAppend 0x62) (session 1 63)) (fun s =>
    s.fill = 0 && s.len = 64 && s.eng = engRun && s.mw[15] = 0x61616162 && s.wk = sha1Initial) = true := by decide
theorem test_dispatch : after (exec .dispatch { session 0 0 with buf := [(0, 0x61), (3, 0x80), (56, 0x18)] }) (fun s =>
    s.mw[0] = 0x80000061 && s.mw[14] = 0x00000018 && s.eng = engRun && s.stepNo = 0) = true := by decide
theorem test_md5Load : after (exec .md5Load { session 0 0 with buf := [(0, 0x61), (1, 0x62), (2, 0x63), (3, 0x80)] })
    (fun s => s.mw[0] = 0x80636261 && s.wk[1] = 0xEFCDAB89 && s.eng = engIdle) = true := by decide
theorem test_sha1Load : after (exec .sha1Load { session 1 0 with buf := [(0, 0x61), (1, 0x62), (2, 0x63), (3, 0x80)] })
    (fun s => s.mw[0] = 0x61626380 && s.wk = sha1Initial) = true := by decide
theorem test_padFinishOne : after (exec .padFinishOne (session 1 55)) (fun s =>
    s.buf.read 55 = 0x80 && s.buf.read 62 = 0x01 && s.buf.read 63 = 0xB8 && s.fill = 0 && !s.fseq) = true := by decide
theorem test_padFinishTwo : after (exec .padFinishTwo (session 0 56)) (fun s =>
    s.buf.read 56 = 0x80 && s.buf.read 63 = 0 && s.fseq && s.fill = 0 && s.phase = phaseAbsorb) = true := by decide
theorem test_padLenblock : after (exec .padLenblock { chaining 0 true with len := 56 }) (fun s =>
    s.buf = [(56, 0xC0), (57, 0x01)] && !s.fseq && s.eng = engRun && s.mw[14] = 0x1C0) = true := by decide

/-! ## Steps, reset, faults -/

theorem test_step_runs_the_transaction :
    after (step (State.reset.withFetchWord 40 0x1000000002)) (fun s => s.statusWord = 0x00001100 && s.hostq = []) = true := by
  decide
theorem test_step_runs_the_engine_word :
    after (step (State.reset.withFetchWord 16 0x1BF)) (fun s => s.stepNo = 64 && s.eng = engRun) = true := by decide
theorem test_step_reset : after (step { running 1 40 sha1Abc with hostq := [5], sched := [.reset false] }) (fun s =>
    s.statusWord = 0 && s.hostq = [5] && s.stepNo = 0) = true := by decide
theorem test_reserved_eng_faults : faults (exec .nop { State.reset with eng := 3 }) .engReserved = true := by decide

/-! ## Witnesses: for each statement with hypotheses, states and operands that meet them, at each clause's boundary -/

theorem witness_DecodeOfEncodeIsTheInstruction :
    (Instr.wrBad 15 0xFFFFFFFF).wellFormed = true ∧ (encode (.wrBad 15 0xFFFFFFFF)).isSome = true ∧
      (∀ t, Instr.wrBad 15 0xFFFFFFFF ≠ .sha1Sched t) ∧
      (Instr.sha1StepPar2 79).wellFormed = true ∧ encode (.sha1StepPar2 79) = some (.ecw 0x1CF) := by decide
theorem witness_EncodeOfDecodeIsTheWord :
    decode (.tw 0x1FFFFFFFFF) = .ok (.wrBad 15 0xFFFFFFFF) ∧ decode (.ecw 0x2FF) = .ok (.sha1Chain 127) := by decide
/-- A word for each test, at both ends of each range of commands and slots. -/
theorem witness_TransactionWordsDecodeToOneRow_commands :
    (twWe 0x1000000004 = 1 ∧ twSlot 0x1000000004 = 0 ∧ commandReserved (twData 0x1000000004) = 0 ∧
      commandOp (twData 0x1000000004) = 4) ∧
    (twSlot 0x1000000005 = 0 ∧ commandReserved (twData 0x1000000005) = 0 ∧
      5 ≤ (commandOp (twData 0x1000000005)).toNat) ∧
    (twSlot 0x100000000F = 0 ∧ commandReserved (twData 0x100000000F) = 0 ∧
      5 ≤ (commandOp (twData 0x100000000F)).toNat) ∧
    (twWe 0x1000000010 = 1 ∧ twSlot 0x1000000010 = 0 ∧ commandReserved (twData 0x1000000010) ≠ 0) ∧
    (twSlot 0x1080000001 = 0 ∧ commandReserved (twData 0x1080000001) ≠ 0) := by decide
theorem witness_TransactionWordsDecodeToOneRow_writes :
    ∀ k ∈ [1, 2, 3, 4, 15], twWe (mkTw 1 k 0) = 1 ∧ twSlot (mkTw 1 k 0) = k ∧
      (k = 2 ∨ k = 3 ∨ twSlot (mkTw 1 k 0) = 1 ∨ 4 ≤ (twSlot (mkTw 1 k 0)).toNat) := by decide
theorem witness_TransactionWordsDecodeToOneRow_reads :
    ∀ k ∈ [1, 4, 5, 8, 9, 10, 11, 12, 0, 2, 3, 6, 7, 13, 15], twWe (mkTw 0 k 0) = 0 ∧ twSlot (mkTw 0 k 0) = k := by
  decide

theorem witness_StepRunsTheHostsTransaction :
    (∃ s : State, s.broken = none ∧ s.noResetNow ∧ s.hostq = [0x1000000001] ∧
      decode (.tw 0x1000000001) = .ok .initMd5 ∧ s.eng = engIdle) ∧
    ∃ s : State, s.broken = none ∧ s.noResetNow ∧ s.hostq = [0x0100000000] ∧
      decode (.tw 0x0100000000) = .ok (.rdStatus 0) ∧ s.eng = engRun ∧ isRead 0x0100000000 = true ∧
      s.sched.head? = some .host :=
  ⟨⟨{ State.reset with hostq := [0x1000000001] }, by decide⟩,
    ⟨{ running 0 63 md5Abc with hostq := [0x0100000000], sched := [.host] }, by decide⟩⟩
theorem witness_StepRunsTheEnginesOperation :
    ∃ s : State, s.broken = none ∧ s.noResetNow ∧ s.eng ≠ engIdle ∧ s.sched.head? = some .host ∧
      s.readPending = false :=
  ⟨{ running 1 79 sha1Abc with hostq := [0x1000000003], sched := [.host] }, by decide⟩
theorem witness_IdleMachineWaits :
    ∃ s : State, s.broken = none ∧ s.noResetNow ∧ s.eng = engIdle ∧ s.hostq = [] :=
  ⟨{ State.reset with sched := [.engine, .host] }, by decide⟩
theorem witness_WriteWaitsWhileBusy :
    ∃ s t : State, s.noResetNow ∧ s.eng ≠ engIdle ∧ s.hostq = [0x1200000061] ∧ isRead 0x1200000061 = false ∧
      step s = .next t :=
  ⟨{ running 0 63 md5Abc with hostq := [0x1200000061], sched := [.host] }, _, by decide, by decide, rfl, by decide, rfl⟩
theorem witness_BusyWriteIsHeld :
    (running 0 0 md5Abc).broken = none ∧ (running 0 0 md5Abc).eng ≠ engIdle ∧
      encode (.wrBad 4 7) = some (.tw 0x1400000007) ∧ isRead 0x1400000007 = false := by decide
theorem witness_WaitingWriteIsAccepted :
    ∃ s : State, Inv s ∧ noReset s.sched = true ∧ s.hostq = [0x1000000002] ∧ isRead 0x1000000002 = false ∧
      s.eng = engRun ∧ s.fseq = true :=
  ⟨{ running 1 0 sha1Abc with phase := phaseDone, fseq := true, hostq := [0x1000000002], sched := [.host, .engine] },
    by constructor <;> decide, by decide⟩
theorem witness_ResetTransition :
    ∃ s : State, s.broken = none ∧ s.sched = [.reset true] ∧ s.eng = engChain :=
  ⟨{ chaining 0 true with sched := [.reset true] }, by decide⟩
theorem witness_ResetAndTheWaitingWrite :
    (∃ s : State, s.broken = none ∧ s.sched = [.reset true] ∧ s.hostq = [0x1200000061]) ∧
    ∃ s : State, s.broken = none ∧ s.sched = [.reset false] ∧ s.eng ≠ engIdle ∧ s.readPending = false ∧
      s.hostq = [0x1200000061] :=
  ⟨⟨{ session 0 0 with hostq := [0x1200000061], sched := [.reset true] }, by decide⟩,
    ⟨{ running 0 5 md5Abc with hostq := [0x1200000061], sched := [.reset false] }, by decide⟩⟩

theorem witness_EveryStepKeepsInv : ∃ s t : State, Inv s ∧ step s = .next t ∧ s.hostq = [0x1364636261] :=
  ⟨{ session 0 62 with hostq := [0x1364636261] }, _, by constructor <;> decide, rfl, rfl⟩
theorem witness_NoStepFromInvStops : ∃ s : State, Inv s ∧ s.eng = engChain ∧ s.fseq = true :=
  ⟨chaining 1 true, by constructor <;> decide, by decide⟩
theorem witness_BrokenStatesFault :
    ({ State.reset with eng := 3 } : State).eng = 3 ∧ ({ State.reset with phase := 3 } : State).phase = 3 ∧
      ((running 0 64 md5Abc).eng = engRun ∧ stepsOf (running 0 64 md5Abc).alg ≤ (running 0 64 md5Abc).stepNo.toNat) ∧
      ((running 1 80 md5Abc).eng = engRun ∧ stepsOf (running 1 80 md5Abc).alg ≤ (running 1 80 md5Abc).stepNo.toNat) ∧
      (({ State.reset with fseq := true } : State).fseq = true ∧
        ({ State.reset with fseq := true } : State).eng = engIdle) ∧
      4 ≤ ({ State.reset with errcode := 4 } : State).errcode.toNat := by decide
theorem witness_OperationsFaultWhereNotTriggered :
    (running 0 15 md5Abc).broken = none ∧ isEngineOp (.md5StepG 15) = true ∧
      decode (.ecw (running 0 15 md5Abc).ecw) ≠ .ok (.md5StepG 15) ∧
      ((running 0 15 md5Abc).alg = 0 ∧ (running 0 15 md5Abc).eng = engRun) ∧
      (State.reset.broken = none ∧ State.reset.phase ≠ phaseAbsorb ∧ State.reset.eng ≠ engChain) ∧
      ((running 1 16 sha1Abc).broken = none ∧ (running 1 16 sha1Abc).stepNo ≠ 17 ∧ (running 1 16 sha1Abc).alg = 1) ∧
      ((session 0 56).broken = none ∧ 56 ≤ (session 0 56).fill.toNat) ∧
      ((session 0 55).broken = none ∧ (session 0 55).fill.toNat ≤ 55) ∧
      ((chaining 0 false).broken = none ∧ (chaining 0 false).fseq = false) := by decide
theorem witness_StateBankWrittenOnlyByInitAndChain :
    ∃ t : State, exec .initSha1 State.reset = .next t ∧ t.hs ≠ State.reset.hs :=
  ⟨_, rfl, by decide⟩
theorem witness_EngineAndReadsKeepTheSession :
    isEngineOp (.md5Chain 64) = true ∧ (∃ t : State, exec (.md5Chain 64) (chaining 0 true) = .next t) ∧
      isReadOp (.rdZero 15 1) = true ∧ ∃ t : State, exec (.rdZero 15 1) (running 0 1 md5Abc) = .next t :=
  ⟨rfl, ⟨_, rfl⟩, rfl, ⟨_, rfl⟩⟩
theorem witness_IdleUntilTheNextWrite :
    ∃ s t : State, s.eng = engIdle ∧ s.readPending = true ∧ step s = .next t :=
  ⟨{ session 0 1 with hostq := [0x0100000000] }, _, by decide, by decide, rfl⟩
theorem witness_DoneDigestIsStable :
    ∃ s t : State, s.done = true ∧ s.noResetNow ∧
      (∀ tw rest, s.hostq = tw :: rest → isInit (decodeTw tw) = false) ∧ step s = .next t ∧ s.hostq = [0x1000000003] :=
  ⟨{ State.reset with phase := phaseDone, hs := sha1Initial, hostq := [0x1000000003] }, _, by decide, by decide,
    by intro tw rest h; cases h; decide, rfl, rfl⟩
theorem witness_FirstErrorIsKept :
    ∃ s t : State, s.err = true ∧ exec (.wrBad 1 0) s = .next t ∧ s.errcode = 2 :=
  ⟨{ State.reset with err := true, errcode := 2 }, _, rfl, rfl, rfl⟩
theorem witness_UnspecifiedStateIsNeverObservable :
    ∃ s t : State, SameVisible s t ∧ s ≠ t ∧ s.phase = phaseAbsorb ∧ s.fill = 3 :=
  ⟨session 0 3, { session 0 3 with
      buf := [(0, 0x61), (1, 0x61), (2, 0x61), (3, 0xFF)], mw := sha1Abc, wk := #v[1, 2, 3, 4, 5] },
    by constructor <;> decide, by decide, by decide, by decide⟩

/-- An idle machine without a broken invariant: the hypotheses of the statements about commands and bad writes. -/
theorem witness_NopHasNoEffect :
    State.reset.broken = none ∧ State.reset.eng = engIdle ∧ (running 0 0 md5Abc).broken = none ∧
      (running 0 0 md5Abc).eng ≠ engIdle := by decide
theorem witness_InitOpensASession :
    ({ State.reset with phase := phaseDone } : State).broken = none ∧
      ({ State.reset with phase := phaseDone } : State).eng = engIdle := by decide
theorem witness_FinishClosesTheSession :
    ∀ fill ∈ [0, 55, 56, 63], (session 1 fill).broken = none ∧ (session 1 fill).eng = engIdle ∧
      (session 1 fill).phase = phaseAbsorb ∧ (session 1 fill).fill = fill := by decide
theorem witness_ClearErrClearsTheError :
    ({ session 0 1 with err := true, errcode := 3 } : State).broken = none ∧
      ({ session 0 1 with err := true, errcode := 3 } : State).eng = engIdle := by decide
theorem witness_RejectedWritesRecordTheirError :
    (session 0 1).broken = none ∧ (session 0 1).eng = engIdle ∧ illegalCommand 5 = true ∧ illegalCommand 0x11 = true ∧
      badWriteSlot 1 = true ∧ badWriteSlot 4 = true ∧ badWriteSlot 15 = true := by decide
theorem witness_DataOutsideASessionIsRejected :
    State.reset.broken = none ∧ State.reset.eng = engIdle ∧ State.reset.phase ≠ phaseAbsorb := by decide
theorem witness_PerformedWriteReturnsNothing :
    ∃ s t : State, encode (.dataB 0x61) = some (.tw 0x1200000061) ∧ isRead 0x1200000061 = false ∧ s.eng = engIdle ∧
      exec (.dataB 0x61) s = .next t ∧ s.resp = some 9 :=
  ⟨{ session 0 3 with resp := some 9 }, _, by decide, by decide, by decide, rfl, rfl⟩
theorem witness_DataBAppendsItsLowByte :
    (∀ fill ∈ [0, 62, 63], (session 1 fill).broken = none ∧ (session 1 fill).eng = engIdle ∧
      (session 1 fill).phase = phaseAbsorb ∧ (session 1 fill).fill.toNat ≤ 63) ∧
    State.reset.broken = none ∧ State.reset.phase ≠ phaseAbsorb := by decide
theorem witness_DataWAppendsFourBytesLowestFirst :
    (∀ fill ∈ [59, 60, 63], (session 0 fill).broken = none ∧ (session 0 fill).eng = engIdle ∧
      (session 0 fill).phase = phaseAbsorb ∧ (session 0 fill).fill.toNat ≤ 63) ∧
    State.reset.broken = none ∧ State.reset.phase ≠ phaseAbsorb := by decide
theorem witness_PadAppendStoresOneByte :
    ∀ fill ∈ [0, 62, 63], (session 0 fill).broken = none ∧ (session 0 fill).phase = phaseAbsorb ∧
      (session 0 fill).fill.toNat ≤ 63 := by decide
theorem witness_BytesPastTheBufferFault :
    (session 0 64).broken = none ∧ (session 0 64).phase = phaseAbsorb ∧ 64 ≤ (session 0 64).fill.toNat ∧
      (session 0 64).eng = engIdle := by decide
theorem witness_DispatchHandsOverTheBlock :
    (session 0 3).broken = none ∧ (session 0 3).eng ≠ engRun ∧ (chaining 1 true).broken = none ∧
      (chaining 1 true).eng ≠ engRun := by decide
theorem witness_LoadsLatchTheBlock :
    (session 0 3).broken = none ∧ (session 0 3).eng ≠ engRun ∧ (session 0 3).alg = 0 ∧
      (session 1 3).broken = none ∧ (session 1 3).eng ≠ engRun ∧ (session 1 3).alg = 1 := by decide
theorem witness_PadFinishOneSendsTheFinalBlock :
    ∀ fill ∈ [0, 55], (session 0 fill).broken = none ∧ (session 0 fill).phase = phaseAbsorb ∧
      (session 0 fill).fill.toNat ≤ 55 := by decide
theorem witness_PadFinishTwoSendsTheTail :
    ∀ fill ∈ [56, 63], (session 0 fill).broken = none ∧ (session 0 fill).phase = phaseAbsorb ∧
      56 ≤ (session 0 fill).fill.toNat ∧ (session 0 fill).fill.toNat ≤ 63 := by decide
theorem witness_PadLenblockSendsTheLength :
    (chaining 1 true).broken = none ∧ (chaining 1 true).eng = engChain ∧ (chaining 1 true).fseq = true := by decide
theorem witness_ZeroBitCount : 447 % 512 = 447 ∧ 448 % 512 = 448 ∧ 56 % 64 = 56 ∧ 119 % 64 = 55 := by decide
theorem witness_BuilderSendsTheMessageBlocks :
    ((session 0 62).broken = none ∧ HoldsTail (List.replicate 62 0x61) (session 0 62)) ∧
      (session 0 63).broken = none ∧ HoldsTail (List.replicate 63 0x61) (session 0 63) :=
  ⟨⟨by decide, by constructor <;> decide +kernel⟩, by decide, by constructor <;> decide +kernel⟩
theorem witness_BuilderSendsTheFinalBlocks :
    ∃ s u v : State, HoldsTail (List.replicate 56 0x61) s ∧ s.broken = none ∧ s.eng = engIdle ∧ s.fill = 56 ∧
      u.len = s.len ∧ u.alg = s.alg ∧ exec .padLenblock u = .next v :=
  ⟨session 0 56, { chaining 0 true with len := 56 }, _, by constructor <;> decide, by decide, by decide, by decide,
    by decide, by decide, rfl⟩
theorem witness_StatusReadGivesTheFields :
    ({ State.reset with phase := phaseDone, err := true, errcode := 3 } : State).broken = none ∧
      (chaining 1 true).broken = none := by decide
theorem witness_ReadsAnswerAtOnce :
    (running 1 79 sha1Abc).broken = none ∧ zeroReadSlot 0 = true ∧ zeroReadSlot 15 = true := by decide
theorem witness_Md5StepsTransformTheWorkingRegisters :
    ∀ i ∈ [0, 15, 16, 31, 32, 47, 48, 63], (running 0 i md5Abc).broken = none ∧ (running 0 i md5Abc).eng = engRun ∧
      (running 0 i md5Abc).alg = 0 ∧ (running 0 i md5Abc).stepNo = i := by decide
theorem witness_Md5ChainAddsAndCompletes :
    ∀ f ∈ [false, true], (chaining 0 f).broken = none ∧ (chaining 0 f).eng = engChain ∧ (chaining 0 f).alg = 0 ∧
      (chaining 0 f).stepNo = 64 ∧ (chaining 0 f).fseq = f := by decide
theorem witness_Md5BlockCompresses :
    (∃ s u : State, exec .dispatch s = .next u ∧ s.alg = 0 ∧ noReset s.sched = true ∧ s.fseq = false ∧
      s.sched = [.host, .engine, .host] ∧ s.hostq = [asmRead .status, 0x1200000061]) ∧
    ∃ s u : State, exec .dispatch s = .next u ∧ s.alg = 0 ∧ noReset s.sched = true ∧ s.fseq = true ∧
      s.sched = [.engine, .host] :=
  ⟨⟨{ session 0 5 with sched := [.host, .engine, .host], hostq := [asmRead .status, 0x1200000061] }, _, rfl, by decide,
      by decide, by decide, rfl, rfl⟩,
    ⟨{ chaining 0 true with sched := [.engine, .host] }, _, rfl, by decide, by decide, by decide, rfl⟩⟩
theorem witness_Sha1StepsTransformTheWorkingRegisters :
    ∀ t ∈ [0, 15, 16, 19, 20, 39, 40, 59, 60, 79], (running 1 t sha1Abc).broken = none ∧
      (running 1 t sha1Abc).eng = engRun ∧ (running 1 t sha1Abc).alg = 1 ∧ (running 1 t sha1Abc).stepNo = t := by decide
theorem witness_Sha1SchedUpdatesTheWindow :
    ∀ t ∈ [0, 15, 16, 79], (running 1 t sha1Abc).broken = none ∧ (running 1 t sha1Abc).eng = engRun ∧
      (running 1 t sha1Abc).alg = 1 ∧ (running 1 t sha1Abc).stepNo = t := by decide
theorem witness_Sha1ChainAddsAndCompletes :
    ∀ f ∈ [false, true], (chaining 1 f).broken = none ∧ (chaining 1 f).eng = engChain ∧ (chaining 1 f).alg = 1 ∧
      (chaining 1 f).stepNo = 80 ∧ (chaining 1 f).fseq = f := by decide
theorem witness_ScheduleRecurrence : 16 ≤ 16 ∧ 16 ≤ 79 ∧ 79 ≤ 79 := by decide
theorem witness_WindowHoldsTheSchedule : 16 ≤ 79 ∧ 79 ≤ 79 ∧ 1 ≤ 1 ∧ 1 ≤ 16 ∧ 16 ≤ 16 := by decide
theorem witness_Sha1BlockCompresses :
    (∃ s u : State, exec .dispatch s = .next u ∧ s.alg = 1 ∧ noReset s.sched = true ∧ s.fseq = false ∧
      s.sched = [.host, .engine, .host] ∧ s.hostq = [asmRead .status, 0x1200000061]) ∧
    ∃ s u : State, exec .dispatch s = .next u ∧ s.alg = 1 ∧ noReset s.sched = true ∧ s.fseq = true ∧
      s.sched = [.engine, .host] :=
  ⟨⟨{ session 1 5 with sched := [.host, .engine, .host], hostq := [asmRead .status, 0x1200000061] }, _, rfl, by decide,
      by decide, by decide, rfl, rfl⟩,
    ⟨{ chaining 1 true with sched := [.engine, .host] }, _, rfl, by decide, by decide, by decide, rfl⟩⟩
theorem witness_SessionComputesTheDigest :
    ∃ (s : State) (body reads : List Tw), Inv s ∧ noReset s.sched = true ∧ s.eng = engRun ∧
      s.hostq = asmWrite .cmd (if (1 : BitVec 1) = 0 then 0x1 else 0x2) :: body ++ asmWrite .cmd 0x3 :: reads ∧
      (∀ tw ∈ body, isDataWrite tw = true ∨ isRead tw = true) ∧ (∀ tw ∈ reads, isRead tw = true) ∧
      body.flatMap bytesOf = [0x61, 0x62, 0x63, 0x64, 0x65] :=
  ⟨{ running 0 3 md5Abc with
      sched := [.host, .engine, .host]
      hostq := [asmWrite .cmd 0x2, 0x1364636261, asmRead .status, 0x1200000065, asmWrite .cmd 0x3, asmRead .status] },
    [0x1364636261, asmRead .status, 0x1200000065], [asmRead .status], by constructor <;> decide, by decide, by decide, rfl, by simp; decide, by simp; decide, by decide⟩

end Sys2Proof.Tests
end

section
/-! PROOFS. The transaction words (spec/30_encoding.md R54..R57): what the decoder answers under each test of R57, and
which rows of opcode_table.json a word matches. A row tests a word field by field, so a word matches the rows of a
representative word with the same WE and SLOT, and for a command with reserved bits the same highest data bit; at the
representatives the table is evaluated. -/

namespace Sys2Proof

/-! ## The tests of R57 and R55 -/

theorem decodeTw_write {w : Tw} (h : twWe w = 1) : decodeTw w = decodeWrite (twSlot w) (twData w) := if_pos h

theorem decodeTw_read {w : Tw} (h : twWe w = 0) : decodeTw w = decodeRead (twSlot w) (twData w) :=
  if_neg (by simp [h])

theorem decodeTw_command {w : Tw} (hwe : twWe w = 1) (hslot : twSlot w = 0) :
    decodeTw w = decodeCommand (twData w) := by
  rw [decodeTw_write hwe, decodeWrite, if_pos hslot]

theorem decodeCommand_of_reserved {v : Word} (h : commandReserved v ≠ 0) : decodeCommand v = .cmdIllegal v := if_neg h

theorem decodeCommand_of_unassigned {v : Word} (h : 5 ≤ (commandOp v).toNat) : decodeCommand v = .cmdIllegal v := by
  have above : ∀ op : BitVec 4, 5 ≤ op.toNat → op ≠ 0 ∧ op ≠ 1 ∧ op ≠ 2 ∧ op ≠ 3 ∧ op ≠ 4 := by decide
  obtain ⟨h0, h1, h2, h3, h4⟩ := above _ h
  simp only [decodeCommand, h0, h1, h2, h3, h4, if_false, ite_self]

theorem decodeWrite_bad {slot : Slot} (v : Word) (h : slot = 1 ∨ 4 ≤ slot.toNat) :
    decodeWrite slot v = .wrBad slot v := by
  have other : ∀ k : Slot, k = 1 ∨ 4 ≤ k.toNat → k ≠ 0 ∧ k ≠ 2 ∧ k ≠ 3 := by decide
  obtain ⟨h0, h2, h3⟩ := other slot h
  simp only [decodeWrite, h0, h2, h3, if_false]

theorem decodeRead_zero {slot : Slot} (v : Word)
    (h : slot = 0 ∨ slot = 2 ∨ slot = 3 ∨ slot = 6 ∨ slot = 7 ∨ 13 ≤ slot.toNat) :
    decodeRead slot v = .rdZero slot v := by
  have other : ∀ k : Slot, k = 0 ∨ k = 2 ∨ k = 3 ∨ k = 6 ∨ k = 7 ∨ 13 ≤ k.toNat →
      k ≠ 1 ∧ k ≠ 4 ∧ k ≠ 5 ∧ k ≠ 8 ∧ k ≠ 9 ∧ k ≠ 10 ∧ k ≠ 11 ∧ k ≠ 12 := by decide
  obtain ⟨h1, h4, h5, h8, h9, h10, h11, h12⟩ := other slot h
  simp only [decodeRead, h1, h4, h5, h8, h9, h10, h11, h12, if_false]

/-- Only a command's mnemonic depends on DATA. -/
theorem mnemonic_decodeTw_clear_data {w : Tw} (h : ¬ (twWe w = 1 ∧ twSlot w = 0)) :
    mnemonic (decodeTw w) = mnemonic (decodeTw (mkTw (twWe w) (twSlot w) 0)) := by
  simp only [decodeTw, twWe_mkTw, twSlot_mkTw, twData_mkTw]
  split
  · next hwe =>
    simp only [decodeWrite, if_neg (fun hs => h ⟨hwe, hs⟩)]
    split_ifs <;> rfl
  · simp only [decodeRead]
    split_ifs <;> rfl

/-! ## The highest set bit of DATA -/

/-- The bits from j up of a word are those of 2^j iff its highest set bit is bit j. -/
theorem and_highMask_eq_twoPow_iff {n j : Nat} (v : BitVec n) (hj : 0 < j) (hn : j < n) :
    v &&& BitVec.allOnes n <<< j = BitVec.twoPow n j ↔ v.toNat.log2 = j := by
  have hpos : 0 < 2 ^ j := Nat.two_pow_pos j
  have hle : v.toNat / 2 ^ j * 2 ^ j < 2 ^ n := (Nat.div_mul_le_self _ _).trans_lt v.isLt
  have hhigh : (v >>> j <<< j).toNat = v.toNat / 2 ^ j * 2 ^ j := by
    rw [BitVec.toNat_shiftLeft, BitVec.toNat_ushiftRight, Nat.shiftLeft_eq, Nat.shiftRight_eq_div_pow,
      Nat.mod_eq_of_lt hle]
  calc v &&& BitVec.allOnes n <<< j = BitVec.twoPow n j
      ↔ v.toNat / 2 ^ j * 2 ^ j = 2 ^ j := by
        rw [← BitVec.shiftLeft_ushiftRight, ← BitVec.toNat_inj, hhigh, BitVec.toNat_twoPow_of_lt hn]
    _ ↔ v.toNat / 2 ^ j = 1 := by rw [Nat.mul_eq_right hpos.ne']
    _ ↔ 2 ^ j ≤ v.toNat ∧ v.toNat < 2 ^ (j + 1) := by
        rw [Nat.div_eq_iff hpos, Nat.pow_succ]
        omega
    _ ↔ v.toNat.log2 = j := by
        by_cases h0 : v.toNat = 0
        · simp [h0, hj.ne]
        · exact (Nat.log2_eq_iff h0).symm

theorem commandReserved_eq_zero_iff (v : Word) : commandReserved v = 0 ↔ v.toNat.log2 < 4 := by
  have hsmall : commandReserved v = 0 ↔ v.toNat < 2 ^ 4 := by
    have := v.isLt
    simp only [commandReserved, ← BitVec.toNat_inj, BitVec.extractLsb'_toNat, Nat.shiftRight_eq_div_pow,
      BitVec.ofNat_eq_ofNat, BitVec.toNat_ofNat]
    omega
  by_cases h0 : v.toNat = 0
  · rw [hsmall, h0]
    decide
  · rw [hsmall, Nat.log2_lt h0]

/-- A command word with no reserved bit set is its OP. -/
theorem eq_append_commandOp {v : Word} (h : commandReserved v = 0) : v = 0#28 ++ commandOp v := by
  calc v = commandReserved v ++ commandOp v := by
        rw [commandReserved, commandOp, BitVec.extractLsb'_append_extractLsb'_eq_extractLsb' (by rfl)]
        exact BitVec.extractLsb'_eq_self.symm
    _ = 0#28 ++ commandOp v := by rw [h]; rfl

/-! ## What a row of the table tests -/

theorem tw_ext {w w' : Tw} (hwe : twWe w = twWe w') (hslot : twSlot w = twSlot w') (hdata : twData w = twData w') :
    w = w' := by
  rw [← mkTw_fields w, ← mkTw_fields w', hwe, hslot, hdata]

@[simp] theorem twWe_and (w m : Tw) : twWe (w &&& m) = twWe w &&& twWe m := BitVec.extractLsb'_and

@[simp] theorem twSlot_and (w m : Tw) : twSlot (w &&& m) = twSlot w &&& twSlot m := BitVec.extractLsb'_and

@[simp] theorem twData_and (w m : Tw) : twData (w &&& m) = twData w &&& twData m := BitVec.extractLsb'_and

@[simp] theorem commandReserved_and (v m : Word) :
    commandReserved (v &&& m) = commandReserved v &&& commandReserved m := BitVec.extractLsb'_and

theorem rowMatches_iff_fields (w : Tw) (r : TableRow 37) :
    rowMatches w r = true ↔ twWe w &&& twWe r.mask = twWe r.pattern ∧ twSlot w &&& twSlot r.mask = twSlot r.pattern ∧
      twData w &&& twData r.mask = twData r.pattern := by
  rw [rowMatches, decide_eq_true_iff]
  constructor
  · intro h
    simp [← h]
  · rintro ⟨hwe, hslot, hdata⟩
    exact tw_ext (by simpa using hwe) (by simpa using hslot) (by simpa using hdata)

/-- The row tests for a write to CMD. -/
def commandRow (r : TableRow 37) : Bool :=
  twWe r.mask = BitVec.allOnes 1 && twSlot r.mask = BitVec.allOnes 4 && twWe r.pattern = 1 && twSlot r.pattern = 0

/-- The row tests for a write to CMD whose reserved bits are all 0. -/
def assignableRow (r : TableRow 37) : Bool :=
  commandRow r && commandReserved (twData r.mask) = BitVec.allOnes 28 && commandReserved (twData r.pattern) = 0

/-- The row tests for a write to CMD whose highest set bit is bit j. -/
def highestBitRow (j : Nat) (r : TableRow 37) : Bool :=
  commandRow r && twData r.mask = BitVec.allOnes 32 <<< j && twData r.pattern = BitVec.twoPow 32 j

/-- The row tests WE and SLOT only. -/
def slotRow (r : TableRow 37) : Bool := twData r.mask = 0

theorem hostRows_kinds : ∀ r ∈ hostRows,
    assignableRow r = true ∨ (∃ k < 28, highestBitRow (k + 4) r = true) ∨ slotRow r = true := by decide

theorem rowMatches_commandRow {r : TableRow 37} (w : Tw) (hr : commandRow r = true) :
    rowMatches w r = true ↔ twWe w = 1 ∧ twSlot w = 0 ∧ twData w &&& twData r.mask = twData r.pattern := by
  simp only [commandRow, Bool.and_eq_true, decide_eq_true_eq] at hr
  obtain ⟨⟨⟨hmwe, hmslot⟩, hpwe⟩, hpslot⟩ := hr
  rw [rowMatches_iff_fields, hmwe, hmslot, hpwe, hpslot, BitVec.and_allOnes, BitVec.and_allOnes]

theorem rowMatches_highestBitRow {r : TableRow 37} {j : Nat} (w : Tw) (hr : highestBitRow j r = true) (hj : 0 < j)
    (hn : j < 32) : rowMatches w r = true ↔ twWe w = 1 ∧ twSlot w = 0 ∧ (twData w).toNat.log2 = j := by
  simp only [highestBitRow, Bool.and_eq_true, decide_eq_true_eq] at hr
  obtain ⟨⟨hcmd, hmask⟩, hpattern⟩ := hr
  rw [rowMatches_commandRow w hcmd, hmask, hpattern, and_highMask_eq_twoPow_iff _ hj hn]

theorem rowMatches_assignableRow_eq_false {r : TableRow 37} {w : Tw} (hr : assignableRow r = true)
    (hres : twWe w = 1 → twSlot w = 0 → commandReserved (twData w) ≠ 0) : rowMatches w r = false := by
  rw [Bool.eq_false_iff]
  intro h
  simp only [assignableRow, Bool.and_eq_true, decide_eq_true_eq] at hr
  obtain ⟨⟨hcmd, hmask⟩, hpattern⟩ := hr
  obtain ⟨hwe, hslot, hdata⟩ := (rowMatches_commandRow w hcmd).mp h
  have hclear := congrArg commandReserved hdata
  rw [commandReserved_and, hmask, hpattern, BitVec.and_allOnes] at hclear
  exact hres hwe hslot hclear

theorem rowMatches_slotRow {r : TableRow 37} {w w' : Tw} (hr : slotRow r = true) (hwe : twWe w = twWe w')
    (hslot : twSlot w = twSlot w') : rowMatches w r = rowMatches w' r := by
  have hmask : twData r.mask = 0 := of_decide_eq_true hr
  rw [Bool.eq_iff_iff, rowMatches_iff_fields, rowMatches_iff_fields, hwe, hslot, hmask]
  simp

/-- Two words with the same WE and SLOT, and if they are commands, with reserved bits set and the same highest one, match
the same rows. -/
theorem hostRows_filter_congr {w w' : Tw} (hwe : twWe w = twWe w') (hslot : twSlot w = twSlot w')
    (hdata : twWe w = 1 → twSlot w = 0 →
      commandReserved (twData w) ≠ 0 ∧ (twData w').toNat.log2 = (twData w).toNat.log2) :
    hostRows.filter (rowMatches w) = hostRows.filter (rowMatches w') := by
  refine List.filter_congr fun r hr => ?_
  obtain hr | ⟨k, hk, hr⟩ | hr := hostRows_kinds r hr
  · rw [rowMatches_assignableRow_eq_false hr fun h1 h0 => (hdata h1 h0).1,
      rowMatches_assignableRow_eq_false hr fun h1 h0 => ?_]
    obtain ⟨hres, htop⟩ := hdata (hwe.trans h1) (hslot.trans h0)
    rwa [Ne, commandReserved_eq_zero_iff, htop, ← commandReserved_eq_zero_iff]
  · rw [Bool.eq_iff_iff, rowMatches_highestBitRow w hr (by omega) (by omega),
      rowMatches_highestBitRow w' hr (by omega) (by omega), ← hwe, ← hslot]
    refine and_congr_right fun h1 => and_congr_right fun h0 => ?_
    rw [(hdata h1 h0).2]
  · exact rowMatches_slotRow hr hwe hslot

/-! ## The one row that matches -/

/-- The names of the rows of the host words that the word matches. -/
def matchingRows (w : Tw) : List String := (hostRows.filter (rowMatches w)).map TableRow.name

theorem matchingRows_slot : ∀ we slot, ¬ (we = 1 ∧ slot = 0) →
    matchingRows (mkTw we slot 0) = [mnemonic (decodeTw (mkTw we slot 0))] := by decide

theorem matchingRows_op : ∀ op : BitVec 4,
    matchingRows (mkTw 1 0 (0#28 ++ op)) = [mnemonic (decodeCommand (0#28 ++ op))] := by decide

theorem matchingRows_highestBit : ∀ j < 32, 4 ≤ j →
    matchingRows (mkTw 1 0 (BitVec.twoPow 32 j)) = ["CMD_ILLEGAL"] := by decide

theorem matchingRows_of_not_command {w : Tw} (h : ¬ (twWe w = 1 ∧ twSlot w = 0)) :
    matchingRows w = [mnemonic (decodeTw w)] := by
  rw [mnemonic_decodeTw_clear_data h, ← matchingRows_slot _ _ h, matchingRows, matchingRows,
    hostRows_filter_congr (w' := mkTw (twWe w) (twSlot w) 0) (by simp) (by simp) fun hwe hslot => absurd ⟨hwe, hslot⟩ h]

theorem matchingRows_of_assignable {w : Tw} (hwe : twWe w = 1) (hslot : twSlot w = 0)
    (hres : commandReserved (twData w) = 0) : matchingRows w = [mnemonic (decodeTw w)] := by
  rw [decodeTw_command hwe hslot, ← mkTw_fields w, hwe, hslot, twData_mkTw, eq_append_commandOp hres, matchingRows_op]

theorem matchingRows_of_reserved {w : Tw} (hwe : twWe w = 1) (hslot : twSlot w = 0)
    (hres : commandReserved (twData w) ≠ 0) : matchingRows w = [mnemonic (decodeTw w)] := by
  have hmin : 4 ≤ (twData w).toNat.log2 := not_lt.mp ((commandReserved_eq_zero_iff _).not.mp hres)
  have hmax : (twData w).toNat.log2 < 32 := (Nat.log2_lt (by intro h; simp [h] at hmin)).mpr (twData w).isLt
  rw [decodeTw_command hwe hslot, decodeCommand_of_reserved hres, mnemonic, ← matchingRows_highestBit _ hmax hmin,
    matchingRows, matchingRows, hostRows_filter_congr (hwe.trans (twWe_mkTw 1 0 _).symm)
      (hslot.trans (twSlot_mkTw 1 0 _).symm) fun _ _ => ⟨hres, ?_⟩]
  rw [twData_mkTw, BitVec.toNat_twoPow_of_lt hmax, Nat.log2_two_pow]

/-- Every word matches exactly one row, the row of the instruction it decodes to (R57). -/
theorem matchingRows_eq (w : Tw) : matchingRows w = [mnemonic (decodeTw w)] := by
  by_cases hcmd : twWe w = 1 ∧ twSlot w = 0
  · obtain ⟨hwe, hslot⟩ := hcmd
    by_cases hres : commandReserved (twData w) = 0
    · exact matchingRows_of_assignable hwe hslot hres
    · exact matchingRows_of_reserved hwe hslot hres
  · exact matchingRows_of_not_command hcmd

/-- Settles O3: the tests are the decoder's branches, and the rows are counted by `matchingRows_eq`. -/
theorem transactionWordsDecodeToOneRow : Obligations.TransactionWordsDecodeToOneRow := by
  intro w
  refine ⟨decodeTw w, rfl, ?commands, ?reserved, ?dataB, ?dataW, ?badWrites, ?status, ?lenLo, ?lenHi,
    ?digest0, ?digest1, ?digest2, ?digest3, ?digest4, ?zeroReads, matchingRows_eq w⟩
  case commands =>
    intro hwe hslot hres
    rw [decodeTw_command hwe hslot]
    refine ⟨?_, ?_, ?_, ?_, ?_, decodeCommand_of_unassigned⟩ <;> (intro hop; simp [decodeCommand, hres, hop])
  case reserved =>
    intro hwe hslot hres
    rw [decodeTw_command hwe hslot, decodeCommand_of_reserved hres]
  case badWrites =>
    intro hwe hslot
    rw [decodeTw_write hwe, decodeWrite_bad _ hslot]
  case zeroReads =>
    intro hwe hslot
    rw [decodeTw_read hwe, decodeRead_zero _ hslot]
  case dataB | dataW =>
    intro hwe hslot
    simp [decodeTw_write hwe, decodeWrite, hslot]
  case status | lenLo | lenHi | digest0 | digest1 | digest2 | digest3 | digest4 =>
    intro hwe hslot
    simp [decodeTw_read hwe, decodeRead, hslot]

end Sys2Proof
end

section
/-! PROOFS. The padding buffer builder (spec/40_padding.md R64..R74): the count of zero bytes and the shape of the padded
message, then the micro-operations. Each of them that sends a block writes some bytes of BUF and dispatches (R71), so what
it hands over and what it leaves unchanged are proved once, of `State.sendBlock`; what a read of BUF then gives is the
laws' lemma for that BUF (`State.read_lengthBuf` and its like). -/

namespace Sys2Proof.Machine

/-! ## The counts of zeros (R64, R65) -/

/-- z is the one number below 64 that brings the message, the terminator and the zeros to 56 modulo 64. -/
theorem zeroCount_spec (n : Nat) : zeroCount n < 64 ∧ (n + 1 + zeroCount n) % 64 = 56 := by
  unfold zeroCount
  omega

/-- The zero bits bring the message and the terminator bit to 448 modulo 512. -/
theorem padZeroBits_spec (n : Nat) : padZeroBits n < 512 ∧ (n + 1 + padZeroBits n) % 512 = 448 := by
  unfold padZeroBits
  omega

/-- Settles O44: each count is the only one in its range with its remainder. -/
theorem zeroBitCount : Obligations.ZeroBitCount := by
  refine ⟨?eightfold, ?bounded, ?none, ?most, ?bytes56, ?bytes55⟩
  case eightfold =>
    intro n
    have := zeroCount_spec n
    have := padZeroBits_spec (8 * n)
    omega
  case bounded | none | most =>
    intro n
    have := padZeroBits_spec n
    omega
  case bytes56 | bytes55 =>
    intro n hn
    have := zeroCount_spec n
    have := padZeroBits_spec (8 * n)
    omega

/-! ## The padded message (R64, R67) -/

/-- The message, the terminator, the zeros and the length field make whole blocks (R67 item 4). -/
theorem zeroCount_fills_blocks (n : Nat) : n + 1 + zeroCount n + 8 = 64 * blockCount n := by
  have := zeroCount_spec n
  unfold blockCount
  omega

theorem padMessage_length (alg : BitVec 1) (m : List Byte) :
    (padMessage alg m).length = 64 * blockCount m.length := by
  simp only [padMessage, List.length_append, List.length_singleton, List.length_replicate, lengthBytes_length,
    zeroCount_fills_blocks]

theorem padMessage_take_message (alg : BitVec 1) (m : List Byte) : (padMessage alg m).take m.length = m := by
  rw [padMessage, List.append_assoc, List.append_assoc, List.take_left]

/-- All but the last 8 bytes do not depend on the algorithm. -/
theorem padMessage_take_body (alg : BitVec 1) (m : List Byte) :
    (padMessage alg m).take ((padMessage alg m).length - 8) =
      m ++ [0x80] ++ List.replicate (zeroCount m.length) 0 := by
  rw [padMessage, List.length_append, lengthBytes_length, Nat.add_sub_cancel, List.take_left]

/-- The last 8 bytes are the length field. -/
theorem padMessage_drop_body (alg : BitVec 1) (m : List Byte) :
    (padMessage alg m).drop ((padMessage alg m).length - 8) = lengthBytes alg (messageBits m.length) := by
  rw [padMessage, List.length_append, lengthBytes_length, Nat.add_sub_cancel, List.drop_left]

theorem lengthBytes_md5_eq_reverse (n : BitVec 64) : lengthBytes 0 n = (lengthBytes 1 n).reverse := rfl

/-- Settles O43: the bounds on the length are those of floor((L + 8) / 64) + 1 blocks. -/
theorem paddingProperties : Obligations.PaddingProperties := by
  intro alg m
  have hlen : (padMessage alg m).length = 64 * ((m.length + 8) / 64 + 1) := padMessage_length alg m
  refine ⟨by omega, by omega, by omega, padMessage_take_message alg m, hlen, ?body, ?lengthField⟩
  case body => rw [padMessage_take_body, padMessage_take_body]
  case lengthField => rw [padMessage_drop_body, padMessage_drop_body, lengthBytes_md5_eq_reverse]

/-! ## A block written and dispatched -/

/-- dispatch() with BUF rewritten to `m`, FSEQ and FILL then set: the shape of R70 at FILL = 63 and of R72, R73 and R74. -/
def State.sendBlock (m : Memory) (fseq : Bool) (fill : BitVec 7) (s : State) : State :=
  { ({ s with buf := m } : State).dispatchBlock with fseq := fseq, fill := fill }

section
variable (s : State) (m : Memory) (fseq : Bool) (fill : BitVec 7)

@[simp] theorem State.sendBlock_buf : (s.sendBlock m fseq fill).buf = m := State.dispatchBlock_buf _

theorem State.handedOver_sendBlock : HandedOver s (s.sendBlock m fseq fill) :=
  ({ s with buf := m } : State).handedOver_dispatchBlock.congr rfl rfl rfl rfl rfl rfl rfl rfl

theorem State.sendBlock_frame :
    s.sendBlock m fseq fill =
      { s with
        buf := (s.sendBlock m fseq fill).buf, mw := (s.sendBlock m fseq fill).mw, wk := (s.sendBlock m fseq fill).wk
        stepNo := 0, eng := engRun, fseq := fseq, fill := fill } := by
  unfold State.sendBlock State.dispatchBlock
  split <;> rfl

end

/-! ## The final blocks (R72, R73, R74) -/

section
variable {s : State} (hb : s.broken = none)
include hb

theorem exec_padFinishOne_eq (hp : s.phase = phaseAbsorb) (hf : s.fill.toNat ≤ 55) :
    exec .padFinishOne s = .next (s.sendBlock s.finishOneBuf false 0) := by
  rw [exec_padFinishOne, whenTriggered_ok hb (by simp [hp, hf]), State.finishOneBlock_eq hf]
  rfl

theorem exec_padFinishTwo_eq (hp : s.phase = phaseAbsorb) (hlo : 56 ≤ s.fill.toNat) (hhi : s.fill.toNat ≤ 63) :
    exec .padFinishTwo s = .next (s.sendBlock s.finishTwoBuf true 0) := by
  rw [exec_padFinishTwo, whenTriggered_ok hb (by simp [hp, hlo]), State.finishTwoBlocks_eq hhi]
  rfl

/-- PAD_LENBLOCK leaves FILL as it is. -/
theorem exec_padLenblock_eq (he : s.eng = engChain) (hq : s.fseq = true) :
    exec .padLenblock s = .next (s.sendBlock s.lengthBuf false s.fill) := by
  rw [exec_padLenblock, whenTriggered_ok hb (by simp [he, hq]), State.sendLengthBlock_eq, ofExcept, State.sendBlock,
    State.dispatchBlock_eq]

end

/-- Settles O40: PAD_FINISH_ONE sends BUF as `State.read_finishOneBuf` reads it. -/
theorem padFinishOneSendsTheFinalBlock : Obligations.PadFinishOneSendsTheFinalBlock := by
  intro s hb hp hf
  refine ⟨_, exec_padFinishOne_eq hb hp hf, s.handedOver_sendBlock _ _ _, fun a => ?bytes, s.sendBlock_frame _ _ _⟩
  case bytes =>
    rw [State.sendBlock_buf]
    exact s.read_finishOneBuf hf a

/-- Settles O41: PAD_FINISH_TWO sends BUF as `State.read_finishTwoBuf` reads it. -/
theorem padFinishTwoSendsTheTail : Obligations.PadFinishTwoSendsTheTail := by
  intro s hb hp hlo hhi
  refine ⟨_, exec_padFinishTwo_eq hb hp hlo hhi, s.handedOver_sendBlock _ _ _, fun a => ?bytes,
    s.sendBlock_frame _ _ _⟩
  case bytes =>
    rw [State.sendBlock_buf]
    exact s.read_finishTwoBuf hhi a

/-- Settles O42: PAD_LENBLOCK sends BUF as `State.read_lengthBuf` reads it. -/
theorem padLenblockSendsTheLength : Obligations.PadLenblockSendsTheLength := by
  intro s hb he hq
  refine ⟨_, exec_padLenblock_eq hb he hq, s.handedOver_sendBlock _ _ _, fun a => ?bytes, s.sendBlock_frame _ _ _⟩
  case bytes =>
    rw [State.sendBlock_buf]
    exact s.read_lengthBuf a

/-! ## One message byte (R70) -/

section
variable {s : State} (b : Byte)

theorem State.read_storedByte (a : Nat) :
    (s.storedByte b).buf.read a = if a = s.fill.toNat then b else s.buf.read a := s.buf.read_write s.fill.toNat a b

theorem exec_padAppend_before_last (hb : s.broken = none) (hp : s.phase = phaseAbsorb) (hf : s.fill.toNat < 63) :
    exec (.padAppend b) s = .next (s.storedByte b) := by
  have hne : s.fill ≠ 63 := by bv_omega
  rw [exec_padAppend, whenTriggered_ok hb (by simp [hp]), State.appendByte_eq b (by omega), if_neg hne]
  rfl

/-- The byte that completes the block is stored, and the block sent, with FSEQ as it was. -/
theorem exec_padAppend_last (hb : s.broken = none) (hp : s.phase = phaseAbsorb) (hf : s.fill.toNat = 63) :
    exec (.padAppend b) s = .next ((s.storedByte b).sendBlock (s.storedByte b).buf s.fseq 0) := by
  have heq : s.fill = 63 := by bv_omega
  rw [exec_padAppend, whenTriggered_ok hb (by simp [hp]), State.appendByte_eq b (by omega), if_pos heq, ofExcept,
    State.sendBlock, State.dispatchBlock_eq]
  rfl

end

/-- Settles O36, by whether the byte completes the block. -/
theorem padAppendStoresOneByte : Obligations.PadAppendStoresOneByte := by
  intro s b hb hp hf
  obtain hlt | hlast : s.fill.toNat < 63 ∨ s.fill.toNat = 63 := by omega
  · refine ⟨_, exec_padAppend_before_last b hb hp hlt, State.read_storedByte b, fun _ => rfl, ?_⟩
    intro hlast
    omega
  · refine ⟨_, exec_padAppend_last b hb hp hlast, fun a => ?bytes, fun hlt => ?notFull, fun _ => ⟨?handed, ?frame⟩⟩
    case bytes =>
      rw [State.sendBlock_buf]
      exact State.read_storedByte b a
    case notFull => omega
    case handed => exact ((s.storedByte b).handedOver_sendBlock _ _ _).congr rfl rfl rfl rfl rfl rfl rfl rfl
    case frame => exact (s.storedByte b).sendBlock_frame _ _ _

end Sys2Proof.Machine
end

section
/-! PROOFS. The MD5 engine (spec/41_md5.md): the message words the two LOADs latch, the step transition of R88 with R93,
proved once for every round function, the chaining transition of R94 with its completion (R118), and the tables of R84,
R85 and R87. -/

namespace Sys2Proof.Machine

/-! ## The loads (R79, R99) -/

section
variable (s : State)

theorem blockByte_bufBlock {a : Nat} (ha : a < 64) : blockByte s.bufBlock a = s.buf.read a :=
  (s.read_eq_bufBlock a ha).symm

theorem State.loadMd5_word (j : Fin 16) : s.loadMd5.mw[j] = s.bufLe32 j := by
  have hwords : s.loadMd5.mw[j] = (leWords s.bufBlock)[j] := congrArg (·[j]) s.loadMd5_words
  rw [hwords, State.bufLe32]
  simp only [leWords, Fin.getElem_fin, Vector.getElem_ofFn]
  iterate 4 rw [blockByte_bufBlock s (by omega)]

theorem State.loadSha1_word (j : Fin 16) : s.loadSha1.mw[j] = s.bufBe32 j := by
  have hwords : s.loadSha1.mw[j] = (beWords s.bufBlock)[j] := congrArg (·[j]) s.loadSha1_words
  rw [hwords, State.bufBe32]
  simp only [beWords, Fin.getElem_fin, Vector.getElem_ofFn]
  iterate 4 rw [blockByte_bufBlock s (by omega)]

end

section
variable {s : State} (hb : s.broken = none) (he : s.eng ≠ engRun)
include hb he

theorem exec_md5Load_eq (ha : s.alg = 0) : exec .md5Load s = .next s.loadMd5 := by
  rw [exec_md5Load, whenTriggered_ok hb (by simpa [ha] using he), ofExcept]

theorem exec_sha1Load_eq (ha : s.alg = 1) : exec .sha1Load s = .next s.loadSha1 := by
  rw [exec_sha1Load, whenTriggered_ok hb (by simpa [ha] using he), ofExcept]

end

/-- Settles O39: the words are those of `State.loadMd5_word` and `State.loadSha1_word`. -/
theorem loadsLatchTheBlock : Obligations.LoadsLatchTheBlock := by
  intro s hb he
  refine ⟨fun ha => ?md5, fun ha => ?sha1⟩
  case md5 => exact ⟨_, exec_md5Load_eq hb he ha, s.loadMd5_word, rfl⟩
  case sha1 => exact ⟨_, exec_sha1Load_eq hb he ha, s.loadSha1_word, rfl⟩

/-! ## The steps (R88, R93) -/

section
variable {s : State} {fsel : BitVec 3} {fn : Word → Word → Word → Word}

/-- The counter reaches the number of steps exactly after step 63. -/
theorem State.md5Step_eng_of_run (he : s.eng = engRun) :
    (s.md5Step fn).eng = if s.stepNo.toNat = 63 then engChain else engRun := by
  have hlast : (s.stepNo + 1).toNat = 64 ↔ s.stepNo.toNat = 63 := by bv_omega
  rw [State.md5Step_eng, he]
  exact if_congr hlast rfl rfl

theorem State.md5Step_eq (he : s.eng = engRun) :
    s.md5Step fn =
      { s with
        wk := #v[s.wk[3], md5StepValue fn s.stepNo.toNat s.mw s.wk[0] s.wk[1] s.wk[2] s.wk[3], s.wk[1], s.wk[2],
          s.wk[4]]
        stepNo := s.stepNo + 1
        eng := if s.stepNo.toNat = 63 then engChain else engRun } := by
  rw [← State.md5Step_eng_of_run (fn := fn) he]
  rfl

theorem State.md5Step_eq_of_lt (he : s.eng = engRun) (hlt : s.stepNo.toNat < 63) :
    s.md5Step fn =
      { s with
        wk := #v[s.wk[3], md5StepValue fn s.stepNo.toNat s.mw s.wk[0] s.wk[1] s.wk[2] s.wk[3], s.wk[1], s.wk[2],
          s.wk[4]]
        stepNo := s.stepNo + 1 } := by
  rw [State.md5Step_eq he, if_neg hlt.ne, ← he]

/-- Whatever the round, its operation is the common step where FSEL selects it (R58). -/
theorem md5Step_triggered (hb : s.broken = none) (he : s.eng = engRun) (ha : s.alg = 0)
    (hfsel : fselOf 0 s.stepNo = fsel) :
    whenTriggered (stepTriggered fsel s.stepNo) (fun s => .ok (s.md5Step fn)) s = .next (s.md5Step fn) := by
  have htrig : stepTriggered fsel s.stepNo s = true :=
    (stepTriggered_iff ..).mpr ⟨he, rfl, by rw [State.fsel, ha, hfsel]⟩
  rw [whenTriggered_ok hb htrig, ofExcept]

end

/-- Settles O49: in the round of i, FSEL is that of the operation, and only the last step of round 3 changes ENG. -/
theorem md5StepsTransformTheWorkingRegisters : Obligations.Md5StepsTransformTheWorkingRegisters := by
  rintro s i hb he ha rfl
  obtain ⟨hF, hG, hH, hI⟩ := fselOf_md5 s.stepNo
  refine ⟨fun hhi => ?roundF, fun hlo hhi => ?roundG, fun hlo hhi => ?roundH, fun hlo hhi => ?roundI⟩
  case roundF =>
    rw [exec_md5StepF, md5Step_triggered hb he ha (hF hhi), State.md5Step_eq_of_lt he (by omega)]
    rfl
  case roundG =>
    rw [exec_md5StepG, md5Step_triggered hb he ha (hG hlo hhi), State.md5Step_eq_of_lt he (by omega)]
    rfl
  case roundH =>
    rw [exec_md5StepH, md5Step_triggered hb he ha (hH hlo hhi), State.md5Step_eq_of_lt he (by omega)]
    rfl
  case roundI =>
    rw [exec_md5StepI, md5Step_triggered hb he ha (hI hlo hhi), State.md5Step_eq he]
    rfl

/-! ## The chaining (R94, R118) -/

/-- With FSEQ = 1, completion sends the length block as PAD_LENBLOCK does. -/
theorem State.completeBlock_sends {s : State} (hq : s.fseq = true) :
    s.completeBlock = .ok (s.sendBlock s.lengthBuf false s.fill) := by
  rw [State.completeBlock_first hq, State.sendBlock, State.dispatchBlock_eq]

theorem State.read_lengthBuf_md5 {s : State} (ha : s.alg = 0) (a : Nat) :
    s.lengthBuf.read a =
      if a < 56 then 0 else if a < 64 then (le64bytes (8 * s.len)).getD (a - 56) 0 else s.buf.read a := by
  rw [State.read_lengthBuf, lengthBytes, if_pos ha, State.bitlen]

section
variable {s : State} (hb : s.broken = none) (he : s.eng = engChain) (ha : s.alg = 0)
include hb he ha

theorem exec_md5Chain_eq : exec (.md5Chain s.stepNo) s = ofExcept s.chainMd5.completeBlock := by
  rw [exec_md5Chain, whenTriggered_ok hb ((chainTriggered_iff ..).mpr ⟨he, rfl, ha⟩)]

theorem exec_md5Chain_last (hq : s.fseq = false) :
    exec (.md5Chain s.stepNo) s = .next { s.chainMd5 with eng := engIdle } := by
  rw [exec_md5Chain_eq hb he ha, State.completeBlock_last (s := s.chainMd5) hq, ofExcept]

theorem exec_md5Chain_first (hq : s.fseq = true) :
    exec (.md5Chain s.stepNo) s = .next (s.chainMd5.sendBlock s.chainMd5.lengthBuf false s.fill) := by
  rw [exec_md5Chain_eq hb he ha, State.completeBlock_sends (s := s.chainMd5) hq, ofExcept, State.chainMd5_fill]

end

/-- Settles O50: with FSEQ = 1 the length block is sent from the state with the new HS. -/
theorem md5ChainAddsAndCompletes : Obligations.Md5ChainAddsAndCompletes := by
  rintro s i h hb he ha rfl rfl
  refine ⟨fun hq => ?last, fun hq => ?first⟩
  case last => exact exec_md5Chain_last hb he ha hq
  case first =>
    refine ⟨_, exec_md5Chain_first hb he ha hq, s.chainMd5.handedOver_sendBlock _ _ _, fun a => ?bytes,
      s.chainMd5.sendBlock_frame _ _ _⟩
    case bytes =>
      rw [State.sendBlock_buf]
      exact State.read_lengthBuf_md5 (s := s.chainMd5) ha a

/-! ## The tables (R84, R85, R87) -/

theorem md5Shift_rounds : ∀ i < 16,
    md5Shift i = [7, 12, 17, 22].getD (i % 4) 0 ∧ md5Shift (16 + i) = [5, 9, 14, 20].getD (i % 4) 0 ∧
      md5Shift (32 + i) = [4, 11, 16, 23].getD (i % 4) 0 ∧ md5Shift (48 + i) = [6, 10, 15, 21].getD (i % 4) 0 := by
  decide

/-- No step rotates by a multiple of the word. -/
theorem md5Shift_range : ∀ i < 64, 0 < md5Shift i ∧ md5Shift i < 32 := by decide

/-- The multipliers 1, 5, 3 and 7 of R84 are odd, so each round permutes the 16 words. -/
theorem md5Index_once_per_round :
    ∀ r < 4, ∀ j : Fin 16, ((List.range 16).filter fun i => md5Index (16 * r + i) = j).length = 1 := by decide

theorem md5Function_rounds {i : Nat} (hi : i < 16) :
    md5Function i = md5F ∧ md5Function (16 + i) = md5G ∧ md5Function (32 + i) = md5H ∧ md5Function (48 + i) = md5I := by
  refine ⟨?_, ?_, ?_, ?_⟩ <;> unfold md5Function
  · rw [if_pos hi]
  · rw [if_neg (by omega), if_pos (by omega)]
  · rw [if_neg (by omega), if_neg (by omega), if_pos (by omega)]
  · rw [if_neg (by omega), if_neg (by omega), if_neg (by omega)]

theorem fselOf_md5_rounds {i : Nat} (hi : i < 16) :
    fselOf 0 (BitVec.ofNat 7 i) = 0b000 ∧ fselOf 0 (BitVec.ofNat 7 (16 + i)) = 0b001 ∧
      fselOf 0 (BitVec.ofNat 7 (32 + i)) = 0b010 ∧ fselOf 0 (BitVec.ofNat 7 (48 + i)) = 0b011 := by
  refine ⟨?roundF, ?roundG, ?roundH, ?roundI⟩
  case roundF =>
    obtain ⟨hF, -, -, -⟩ := fselOf_md5 (BitVec.ofNat 7 i)
    exact hF (by bv_omega)
  case roundG =>
    obtain ⟨-, hG, -, -⟩ := fselOf_md5 (BitVec.ofNat 7 (16 + i))
    exact hG (by bv_omega) (by bv_omega)
  case roundH =>
    obtain ⟨-, -, hH, -⟩ := fselOf_md5 (BitVec.ofNat 7 (32 + i))
    exact hH (by bv_omega) (by bv_omega)
  case roundI =>
    obtain ⟨-, -, -, hI⟩ := fselOf_md5 (BitVec.ofNat 7 (48 + i))
    exact hI (by bv_omega) (by bv_omega)

/-- Settles O51: the tables are evaluated; the functions, which cannot be compared, go by the bounds of their round. -/
theorem md5ScheduleAndShifts : Obligations.Md5ScheduleAndShifts := by
  refine ⟨?constants, ?indexF, ?indexG, ?indexH, ?indexI, md5Shift_rounds, fun i hi => ?rotates,
    fun _ => fselOf_md5_rounds, fun _ => ⟨rfl, rfl, rfl, rfl⟩, fun _ => md5Function_rounds, md5Index_once_per_round⟩
  case constants | indexF | indexG | indexH | indexI => decide
  case rotates =>
    have := md5Shift_range i hi
    omega

end Sys2Proof.Machine
end

section
/-! PROOFS. The SHA-1 engine (spec/42_sha1.md): the band functions of R102..R104 with MD5's round functions of R80..R83,
read bit by bit, the message schedule of R100, the step transition of R106 with R101 and R111, proved once for every band
function and constant, and the chaining transition of R112 with its completion (R118). -/

namespace Sys2Proof.Machine

/-! ## The band functions (R102, R103, R104; R80..R83) -/

section
variable (x y z : Word) (i : Nat)

/-- The mask clears the bits above the word that the complement sets. -/
theorem getLsbD_not_and : (~~~x &&& z).getLsbD i = (!x.getLsbD i && z.getLsbD i) := by
  rw [BitVec.getLsbD_and, BitVec.getLsbD_not]
  by_cases hi : i < 32
  · rw [decide_eq_true hi, Bool.true_and]
  · rw [BitVec.getLsbD_of_ge z i (by omega), Bool.and_false, Bool.and_false]

/-- Where x has a 1 its bit chooses y, where it has a 0, z. -/
theorem md5F_getLsbD : (md5F x y z).getLsbD i = if x.getLsbD i then y.getLsbD i else z.getLsbD i := by
  rw [md5F, BitVec.getLsbD_or, BitVec.getLsbD_and, getLsbD_not_and]
  cases x.getLsbD i <;> simp

/-- G is F with z choosing between x and y. -/
theorem md5G_eq_md5F : md5G x y z = md5F z x y := by
  rw [md5G, md5F, BitVec.and_comm x z, BitVec.and_comm y]

theorem sha1Ch_eq_md5F : sha1Ch x y z = md5F x y z := rfl

theorem sha1Parity_eq_md5H : sha1Parity x y z = md5H x y z := rfl

/-- The halves of Ch never have a 1 in the same bit (R102). -/
theorem sha1Ch_halves_disjoint : (x &&& y) &&& (~~~x &&& z) = 0 := by
  apply BitVec.eq_of_getLsbD_eq
  intro i _
  rw [BitVec.getLsbD_and, BitVec.getLsbD_and, getLsbD_not_and]
  cases x.getLsbD i <;> simp

theorem sha1Ch_eq_xor : sha1Ch x y z = (x &&& y) ^^^ (~~~x &&& z) := by
  apply BitVec.eq_of_getLsbD_eq
  intro i _
  rw [sha1Ch_eq_md5F, md5F_getLsbD, BitVec.getLsbD_xor, BitVec.getLsbD_and, getLsbD_not_and]
  cases x.getLsbD i <;> simp

theorem sha1Maj_getLsbD :
    (sha1Maj x y z).getLsbD i = decide (2 ≤ (x.getLsbD i).toNat + (y.getLsbD i).toNat + (z.getLsbD i).toNat) := by
  simp only [sha1Maj, BitVec.getLsbD_or, BitVec.getLsbD_and]
  cases x.getLsbD i <;> cases y.getLsbD i <;> cases z.getLsbD i <;> rfl

/-- Of the three products either none, one or all are 1 in a bit, so ^ gives what | gives (R104). -/
theorem sha1Maj_eq_xor : sha1Maj x y z = (x &&& y) ^^^ (x &&& z) ^^^ (y &&& z) := by
  apply BitVec.eq_of_getLsbD_eq
  intro i _
  simp only [sha1Maj, BitVec.getLsbD_or, BitVec.getLsbD_xor, BitVec.getLsbD_and]
  cases x.getLsbD i <;> cases y.getLsbD i <;> cases z.getLsbD i <;> rfl

end

/-- Settles O58: the formulas are the definitions, the other forms agree bit by bit, the vectors are evaluated. -/
theorem bandFunctionForms : Obligations.BandFunctionForms := by
  intro x y z
  refine ⟨rfl, sha1Ch_eq_xor x y z, sha1Ch_halves_disjoint x y z, sha1Ch_eq_md5F x y z, md5F_getLsbD x y z, rfl,
    sha1Parity_eq_md5H x y z, rfl, sha1Maj_eq_xor x y z, sha1Maj_getLsbD x y z, rfl, rfl, rfl, rfl, md5F_getLsbD x y z,
    fun i => ?bitsG, ?vectors⟩
  case bitsG => rw [md5G_eq_md5F, md5F_getLsbD]
  case vectors => decide

/-! ## The message schedule (R100) -/

/-- The recurrence of R100 at t, over the words of W. -/
def sha1Recurrence (w : List Word) (t : Nat) : Word :=
  rotl32 (w.getD (t - 3) 0 ^^^ w.getD (t - 8) 0 ^^^ w.getD (t - 14) 0 ^^^ w.getD (t - 16) 0) 1

theorem sha1Extend_eq (w : List Word) : sha1Extend w = w ++ [sha1Recurrence w w.length] := rfl

/-- From t = 16 on, the recurrence looks at words before t only. -/
theorem sha1Recurrence_congr {w w' : List Word} {t : Nat} (ht : 16 ≤ t) (h : ∀ k < t, w.getD k 0 = w'.getD k 0) :
    sha1Recurrence w t = sha1Recurrence w' t := by
  rw [sha1Recurrence, h _ (by omega), h _ (by omega), h _ (by omega), h _ (by omega), sha1Recurrence]

theorem sha1Extend_getD_of_lt {w : List Word} {t : Nat} (ht : t < w.length) : (sha1Extend w).getD t 0 = w.getD t 0 := by
  rw [sha1Extend_eq, List.getD_append _ _ _ _ ht]

theorem sha1Extend_getD_length (w : List Word) : (sha1Extend w).getD w.length 0 = sha1Recurrence w w.length := by
  rw [sha1Extend_eq, List.getD_append_right _ _ _ _ le_rfl, Nat.sub_self, List.getD_cons_zero]

section
variable (x : Vector Word 16)

theorem sha1ScheduleOf_length (n : Nat) : (sha1ScheduleOf x n).length = 16 + n := by
  induction n with
  | zero => simp [sha1ScheduleOf]
  | succ n ih => rw [sha1ScheduleOf, sha1Extend_eq, List.length_append, ih, List.length_singleton, Nat.add_assoc]

/-- Further recurrences leave the words in place. -/
theorem sha1ScheduleOf_getD_add {n t : Nat} (ht : t < 16 + n) (k : Nat) :
    (sha1ScheduleOf x (n + k)).getD t 0 = (sha1ScheduleOf x n).getD t 0 := by
  induction k with
  | zero => rfl
  | succ k ih => rw [Nat.add_succ, sha1ScheduleOf, sha1Extend_getD_of_lt (by rw [sha1ScheduleOf_length]; omega), ih]

/-- The schedule's word t stands there as soon as the recurrence has come past t. -/
theorem sha1Schedule_getD {n t : Nat} (hn : n ≤ 64) (ht : t < 16 + n) :
    (sha1Schedule x).getD t 0 = (sha1ScheduleOf x n).getD t 0 := by
  obtain ⟨k, hk⟩ := Nat.exists_eq_add_of_le hn
  rw [sha1Schedule, hk, sha1ScheduleOf_getD_add x ht]

theorem sha1Schedule_length : (sha1Schedule x).length = 80 := sha1ScheduleOf_length x 64

theorem sha1Schedule_getD_block (t : Fin 16) : (sha1Schedule x).getD t 0 = x[t] := by
  rw [sha1Schedule_getD x (Nat.zero_le 64) t.isLt, sha1ScheduleOf, List.getD_eq_getElem _ _ (by simp), Vector.getElem_toList]
  rfl

/-- The word t is what the recurrence gave over the words before it, which are the schedule's. -/
theorem sha1Schedule_getD_recurrence {t : Nat} (hlo : 16 ≤ t) (hhi : t ≤ 79) :
    (sha1Schedule x).getD t 0 = sha1Recurrence (sha1Schedule x) t := by
  obtain ⟨n, rfl⟩ := Nat.exists_eq_add_of_le hlo
  have hlen := sha1ScheduleOf_length x n
  calc (sha1Schedule x).getD (16 + n) 0
      = (sha1Extend (sha1ScheduleOf x n)).getD (16 + n) 0 := sha1Schedule_getD x (n := n + 1) (by omega) (by omega)
    _ = sha1Recurrence (sha1ScheduleOf x n) (16 + n) := by rw [← hlen, sha1Extend_getD_length]
    _ = sha1Recurrence (sha1Schedule x) (16 + n) :=
        sha1Recurrence_congr hlo fun _ hk => (sha1Schedule_getD x (by omega) hk).symm

end

/-- Settles O56: the block's words stay in front, and each later word is the recurrence over the finished schedule. -/
theorem scheduleRecurrence : Obligations.ScheduleRecurrence := fun x =>
  ⟨sha1Schedule_length x, sha1Schedule_getD_block x, fun _ => sha1Schedule_getD_recurrence x⟩

/-! ## The steps (R101, R106, R111) -/

section
variable {mw : Vector Word 16} {t : Nat}

theorem sha1Word_of_le (ht : t ≤ 15) : sha1Word mw t = mw[Fin.ofNat 16 t] := if_pos ht

theorem sha1Word_of_ge (ht : 16 ≤ t) :
    sha1Word mw t = rotl32 (mw[Fin.ofNat 16 (t - 3)] ^^^ mw[Fin.ofNat 16 (t - 8)] ^^^ mw[Fin.ofNat 16 (t - 14)]
      ^^^ mw[Fin.ofNat 16 t]) 1 := if_neg (by omega)

theorem sha1Window_of_le (ht : t ≤ 15) : sha1Window mw t = mw := if_pos ht

theorem sha1Window_of_ge (ht : 16 ≤ t) : sha1Window mw t = mw.set (Fin.ofNat 16 t) (sha1Word mw t) := if_neg (by omega)

end

section
variable {s : State} {fsel : BitVec 3} {fn : Word → Word → Word → Word} {k : Word}

/-- The counter reaches the number of steps exactly after step 79. -/
theorem State.sha1Step_eng_of_run (he : s.eng = engRun) :
    (s.sha1Step fn k).eng = if s.stepNo.toNat = 79 then engChain else engRun := by
  have hlast : (s.stepNo + 1).toNat = 80 ↔ s.stepNo.toNat = 79 := by bv_omega
  rw [State.sha1Step_eng, he]
  exact if_congr hlast rfl rfl

theorem State.sha1Step_eq (he : s.eng = engRun) :
    s.sha1Step fn k =
      { s with
        mw := sha1Window s.mw s.stepNo.toNat
        wk := #v[sha1StepValue fn k (sha1Word s.mw s.stepNo.toNat) s.wk[0] s.wk[1] s.wk[2] s.wk[3] s.wk[4], s.wk[0],
          rotl32 s.wk[1] 30, s.wk[2], s.wk[3]]
        stepNo := s.stepNo + 1
        eng := if s.stepNo.toNat = 79 then engChain else engRun } := by
  rw [← State.sha1Step_eng_of_run (fn := fn) (k := k) he]
  rfl

theorem State.sha1Step_eq_of_lt (he : s.eng = engRun) (hlt : s.stepNo.toNat < 79) :
    s.sha1Step fn k =
      { s with
        mw := sha1Window s.mw s.stepNo.toNat
        wk := #v[sha1StepValue fn k (sha1Word s.mw s.stepNo.toNat) s.wk[0] s.wk[1] s.wk[2] s.wk[3] s.wk[4], s.wk[0],
          rotl32 s.wk[1] 30, s.wk[2], s.wk[3]]
        stepNo := s.stepNo + 1 } := by
  rw [State.sha1Step_eq he, if_neg hlt.ne, ← he]

/-- Whatever the band, its operation is the common step where FSEL selects it (R58). -/
theorem sha1Step_triggered (hb : s.broken = none) (he : s.eng = engRun) (ha : s.alg = 1)
    (hfsel : fselOf 1 s.stepNo = fsel) :
    whenTriggered (stepTriggered fsel s.stepNo) (fun s => .ok (s.sha1Step fn k)) s = .next (s.sha1Step fn k) := by
  have htrig : stepTriggered fsel s.stepNo s = true :=
    (stepTriggered_iff ..).mpr ⟨he, rfl, by rw [State.fsel, ha, hfsel]⟩
  rw [whenTriggered_ok hb htrig, ofExcept]

end

/-- Settles O53: the statement's Wt and window are the step's own; in the band of t, FSEL is that of the operation, and
only the last step of band 3 changes ENG. -/
theorem sha1StepsTransformTheWorkingRegisters : Obligations.Sha1StepsTransformTheWorkingRegisters := by
  rintro s t wt mw hb he ha rfl hblock hsched
  have hwt : wt = sha1Word s.mw s.stepNo.toNat ∧ mw = sha1Window s.mw s.stepNo.toNat := by
    obtain hle | hge : s.stepNo.toNat ≤ 15 ∨ 16 ≤ s.stepNo.toNat := by omega
    · rw [sha1Word_of_le hle, sha1Window_of_le hle]
      exact hblock hle
    · rw [sha1Window_of_ge hge, sha1Word_of_ge hge]
      obtain ⟨hword, hwindow⟩ := hsched hge
      exact ⟨hword, hword ▸ hwindow⟩
  obtain ⟨rfl, rfl⟩ := hwt
  obtain ⟨hCh, hPar1, hMaj, hPar2⟩ := fselOf_sha1 s.stepNo
  refine ⟨fun hhi => ?bandCh, fun hlo hhi => ?bandPar1, fun hlo hhi => ?bandMaj, fun hlo hhi => ?bandPar2⟩
  case bandCh =>
    rw [exec_sha1StepCh, sha1Step_triggered hb he ha (hCh hhi), State.sha1Step_eq_of_lt he (by omega)]
    rfl
  case bandPar1 =>
    rw [exec_sha1StepPar1, sha1Step_triggered hb he ha (hPar1 hlo hhi), State.sha1Step_eq_of_lt he (by omega)]
    rfl
  case bandMaj =>
    rw [exec_sha1StepMaj, sha1Step_triggered hb he ha (hMaj hlo hhi), State.sha1Step_eq_of_lt he (by omega)]
    rfl
  case bandPar2 =>
    rw [exec_sha1StepPar2, sha1Step_triggered hb he ha (hPar2 hlo hhi), State.sha1Step_eq he]
    rfl

/-! ## The chaining (R112, R118) -/

theorem lengthBytes_sha1 (n : BitVec 64) : lengthBytes 1 n = be64bytes n := if_neg (by decide)

theorem State.read_lengthBuf_sha1 {s : State} (ha : s.alg = 1) (a : Nat) :
    s.lengthBuf.read a =
      if a < 56 then 0 else if a < 64 then (be64bytes (8 * s.len)).getD (a - 56) 0 else s.buf.read a := by
  rw [State.read_lengthBuf, ha, lengthBytes_sha1, State.bitlen]

section
variable {s : State} (hb : s.broken = none) (he : s.eng = engChain) (ha : s.alg = 1)
include hb he ha

theorem exec_sha1Chain_eq : exec (.sha1Chain s.stepNo) s = ofExcept s.chainSha1.completeBlock := by
  rw [exec_sha1Chain, whenTriggered_ok hb ((chainTriggered_iff ..).mpr ⟨he, rfl, ha⟩)]

theorem exec_sha1Chain_last (hq : s.fseq = false) :
    exec (.sha1Chain s.stepNo) s = .next { s.chainSha1 with eng := engIdle } := by
  rw [exec_sha1Chain_eq hb he ha, State.completeBlock_last (s := s.chainSha1) hq, ofExcept]

theorem exec_sha1Chain_first (hq : s.fseq = true) :
    exec (.sha1Chain s.stepNo) s = .next (s.chainSha1.sendBlock s.chainSha1.lengthBuf false s.fill) := by
  rw [exec_sha1Chain_eq hb he ha, State.completeBlock_sends (s := s.chainSha1) hq, ofExcept, State.chainSha1_fill]

end

/-- Settles O55: with FSEQ = 1 the length block is sent from the state with the new HS. -/
theorem sha1ChainAddsAndCompletes : Obligations.Sha1ChainAddsAndCompletes := by
  rintro s i h hb he ha rfl rfl
  refine ⟨fun hq => ?last, fun hq => ?first⟩
  case last => exact exec_sha1Chain_last hb he ha hq
  case first =>
    refine ⟨_, exec_sha1Chain_first hb he ha hq, s.chainSha1.handedOver_sendBlock _ _ _, fun a => ?bytes,
      s.chainSha1.sendBlock_frame _ _ _⟩
    case bytes =>
      rw [State.sendBlock_buf]
      exact State.read_lengthBuf_sha1 (s := s.chainSha1) ha a

end Sys2Proof.Machine
end

section
/-! PROOFS. The host interface (spec/43_host_interface.md): the commands, the rejected writes, the data writes and the
reads. A data write is its bytes appended one after the other, so what PAD_APPEND leaves in each field of the session
is proved once, of `State.afterByte`. -/

namespace Sys2Proof.Machine

/-! ## Commands and rejected writes (R121, R122, R124, R125, R128) -/

/-- A write that cannot fault, with the engine idle: its effect, on a state with the response emptied. -/
theorem hostWrite_total {s : State} (tw : Tw) (act : State → State) (hb : s.broken = none) (he : s.eng = engIdle) :
    hostWrite tw (fun s => .ok (act s)) s = .next (act { s with resp := none }) := hostWrite_idle tw hb he

/-- Settles O28: both commands are `State.openSession`. -/
theorem initOpensASession : Obligations.InitOpensASession := by
  refine ⟨rfl, rfl, fun s hb he => ⟨⟨none, ?md5⟩, ⟨none, ?sha1⟩⟩⟩
  case md5 =>
    rw [exec_initMd5, hostWrite_total _ _ hb he]
    rfl
  case sha1 =>
    rw [exec_initSha1, hostWrite_total _ _ hb he]
    rfl

/-- Settles O30: the command is `State.clearHostError`. -/
theorem clearErrClearsTheError : Obligations.ClearErrClearsTheError := by
  refine ⟨rfl, fun s hb he => ⟨none, ?_⟩⟩
  rw [exec_clearErr, hostWrite_total _ _ hb he]
  rfl

theorem illegalCommand_iff (v : Word) : illegalCommand v = true ↔ commandReserved v ≠ 0 ∨ 5 ≤ (commandOp v).toNat := by
  simp [illegalCommand, commandReserved, commandOp]

theorem badWriteSlot_iff (slot : Slot) : badWriteSlot slot = true ↔ slot = 1 ∨ 4 ≤ slot.toNat := by
  simp [badWriteSlot]

theorem decodeTw_illegal {v : Word} (h : illegalCommand v = true) : decodeTw (mkTw 1 0 v) = .cmdIllegal v := by
  rw [decodeTw_command (twWe_mkTw ..) (twSlot_mkTw ..), twData_mkTw]
  obtain hreserved | hop := (illegalCommand_iff v).mp h
  · exact decodeCommand_of_reserved hreserved
  · exact decodeCommand_of_unassigned hop

theorem decodeTw_badWrite {slot : Slot} (v : Word) (h : badWriteSlot slot = true) :
    decodeTw (mkTw 1 slot v) = .wrBad slot v := by
  rw [decodeTw_write (twWe_mkTw ..), twSlot_mkTw, twData_mkTw, decodeWrite_bad v ((badWriteSlot_iff slot).mp h)]

/-- Settles O31: the words by the tests of R55 and R57, the effect by `State.raiseHostError`. -/
theorem rejectedWritesRecordTheirError : Obligations.RejectedWritesRecordTheirError := by
  refine ⟨fun v hv => ⟨rfl, ?illegalWord⟩, illegalCommand_iff, ?word0x11, fun slot v hs => ⟨rfl, ?badWord⟩,
    badWriteSlot_iff, fun s v slot hb he => ⟨⟨none, ?illegal⟩, ⟨none, ?bad⟩⟩⟩
  case illegalWord => rw [decode, decodeTw_illegal hv]
  case word0x11 => rw [decode, decodeTw_illegal (by decide)]
  case badWord => rw [decode, decodeTw_badWrite v hs]
  case illegal =>
    rw [exec_cmdIllegal, hostWrite_total _ _ hb he]
    rfl
  case bad =>
    rw [exec_wrBad, hostWrite_total _ _ hb he]
    rfl

/-! ## Reads (R130, R131, R132) -/

/-- Settles O48: every read is `hostRead`, which ENG does not delay. -/
theorem readsAnswerAtOnce : Obligations.ReadsAnswerAtOnce :=
  ⟨fun _ => ⟨rfl, rfl⟩, fun _ _ _ => rfl, fun _ _ _ hb =>
    ⟨hostRead_ok State.lenLo hb, hostRead_ok State.lenHi hb, hostRead_ok (State.digestWord · 0) hb,
      hostRead_ok (State.digestWord · 1) hb, hostRead_ok (State.digestWord · 2) hb, hostRead_ok (State.digestWord · 3) hb,
      hostRead_ok (State.digestWord · 4) hb, hostRead_ok (fun _ => 0) hb⟩⟩

/-! ## One byte appended (R70), field by field -/

/-- What PAD_APPEND leaves with FILL up to 63 (`State.appendByte_ok`). -/
def State.afterByte (b : Byte) (s : State) : State :=
  if s.fill = 63 then { (s.storedByte b).dispatchBlock with fill := 0 } else s.storedByte b

section
variable {s : State} (b : Byte)

theorem State.appendByte_ok (hf : s.fill.toNat ≤ 63) : s.appendByte b = .ok (s.afterByte b) :=
  State.appendByte_eq b (by omega)

@[simp] theorem State.afterByte_len : (s.afterByte b).len = s.len + 1 := by
  unfold State.afterByte
  split
  · exact (s.storedByte b).dispatchBlock_len
  · rfl

@[simp] theorem State.afterByte_phase : (s.afterByte b).phase = s.phase := by
  unfold State.afterByte
  split
  · exact (s.storedByte b).dispatchBlock_phase
  · rfl

theorem State.afterByte_fill (hf : s.fill.toNat ≤ 63) : (s.afterByte b).fill.toNat = (s.fill.toNat + 1) % 64 := by
  unfold State.afterByte
  split
  · next hlast => rw [hlast]; rfl
  · next hne =>
    change (s.fill + 1).toNat = _
    bv_omega

/-- The byte that fills the block starts the engine. -/
theorem State.afterByte_eng : (s.afterByte b).eng = if s.fill.toNat = 63 then engRun else s.eng := by
  have hlast : s.fill = 63 ↔ s.fill.toNat = 63 := by bv_omega
  rw [State.afterByte, ← if_congr hlast rfl rfl]
  split <;> rfl

theorem State.afterByte_running : (s.afterByte b).eng = engRun ↔ s.eng = engRun ∨ s.fill.toNat = 63 := by
  rw [State.afterByte_eng]
  split <;> simp [*]

theorem State.afterByte_busy : (s.afterByte b).eng ≠ engIdle ↔ s.eng ≠ engIdle ∨ s.fill.toNat = 63 := by
  rw [State.afterByte_eng]
  split <;> simp [*]

theorem State.afterByte_setResp (r : Option Word) :
    State.afterByte b { s with resp := r } = { s.afterByte b with resp := r } := by
  unfold State.afterByte
  split
  · exact congrArg (fun t : State => { t with fill := 0 }) ((s.storedByte b).dispatchBlock_setResp r)
  · rfl

end

/-- dispatch() starts at step 0, and nothing else that R61 looks at changes but ENG. -/
theorem State.dispatchBlock_unbroken {s : State} (hb : s.broken = none) : s.dispatchBlock.broken = none := by
  obtain ⟨_, hphase, _, _, herr⟩ := (State.broken_eq_none_iff s).mp hb
  refine (State.broken_eq_none_iff _).mpr ⟨by simp, by simpa using hphase, fun _ => ?inRange, by simp, by simpa using herr⟩
  case inRange =>
    rw [State.dispatchBlock_stepNo, stepsOf]
    split <;> decide

theorem State.afterByte_unbroken {s : State} (b : Byte) (hb : s.broken = none) : (s.afterByte b).broken = none := by
  unfold State.afterByte
  split
  · exact (s.storedByte b).dispatchBlock_unbroken hb
  · exact hb

/-! ## Bytes appended one after the other -/

/-- A session open with a partial block in BUF, in a machine that shows no broken invariant. -/
structure Absorbing (s : State) : Prop where
  unbroken : s.broken = none
  phase : s.phase = phaseAbsorb
  fill : s.fill.toNat ≤ 63

theorem Absorbing.afterByte {s : State} (h : Absorbing s) (b : Byte) : Absorbing (s.afterByte b) where
  unbroken := State.afterByte_unbroken b h.unbroken
  phase := (State.afterByte_phase b).trans h.phase
  fill := by rw [State.afterByte_fill b h.fill]; omega

theorem Absorbing.exec_padAppend {s : State} (h : Absorbing s) (b : Byte) :
    exec (.padAppend b) s = .next (s.afterByte b) := by
  rw [Machine.exec_padAppend, whenTriggered_ok h.unbroken (by simp [h.phase]), State.appendByte_ok b h.fill, ofExcept]

theorem Absorbing.appendBytes {s : State} (h : Absorbing s) (bytes : List Byte) :
    State.appendBytes bytes s = .ok (bytes.foldl (fun t b => t.afterByte b) s) := by
  induction bytes generalizing s with
  | nil => rfl
  | cons b bs ih =>
    rw [State.appendBytes, State.appendByte_ok b h.fill]
    exact ih (h.afterByte b)

theorem foldl_afterByte_setResp (bytes : List Byte) (s : State) (r : Option Word) :
    bytes.foldl (fun t b => t.afterByte b) { s with resp := r } =
      { bytes.foldl (fun t b => t.afterByte b) s with resp := r } := by
  induction bytes generalizing s with
  | nil => rfl
  | cons b bs ih => rw [List.foldl_cons, State.afterByte_setResp, ih, List.foldl_cons]

/-- A data write in a session, with the engine idle: its bytes appended and the response emptied (R126, R127). -/
theorem Absorbing.hostWrite_bytes {s : State} (h : Absorbing s) (he : s.eng = engIdle) (tw : Tw) (bytes : List Byte) :
    hostWrite tw (State.inSession (State.appendBytes bytes)) s =
      .next { bytes.foldl (fun t b => t.afterByte b) s with resp := none } := by
  have hr : Absorbing { s with resp := none } := ⟨h.unbroken, h.phase, h.fill⟩
  rw [hostWrite_idle tw h.unbroken he, inSession_open hr.phase, hr.appendBytes, foldl_afterByte_setResp, ofExcept]

/-- A data write outside a session records NO_SESSION (R142). -/
theorem hostWrite_outside {s : State} {act : State → Except Fault State} (hb : s.broken = none) (he : s.eng = engIdle)
    (hp : s.phase ≠ phaseAbsorb) (tw : Tw) :
    hostWrite tw (State.inSession act) s =
      .next { s with err := true, errcode := if s.err then s.errcode else 2, resp := none } := by
  rw [hostWrite_idle tw hb he, inSession_closed (s := { s with resp := none }) hp]
  rfl

/-! ## Data writes (R126, R127) -/

/-- Bit 0 of STATUS is BUSY (R129). -/
theorem State.statusWord_busy (s : State) : s.statusWord.extractLsb' 0 1 = 1 ↔ s.eng ≠ engIdle := by
  have hbit : s.statusWord.extractLsb' 0 1 = BitVec.ofBool s.busy := BitVec.extractLsb'_append_eq_right
  have hone : ∀ b : Bool, BitVec.ofBool b = 1 ↔ b = true := by decide
  rw [hbit, hone, State.busy, decide_eq_true_iff]

/-- Settles O34: the one byte starts the engine exactly when FILL was 63. -/
theorem dataBAppendsItsLowByte : Obligations.DataBAppendsItsLowByte := by
  refine ⟨fun _ => rfl, fun s v hb he => ⟨fun hp hf => ?session, fun hp => ⟨none, ?outside⟩⟩⟩
  case session =>
    have habs : Absorbing s := ⟨hb, hp, hf⟩
    have hidle : s.eng ≠ engRun := he ▸ by decide
    refine ⟨_, none, habs.exec_padAppend _, habs.hostWrite_bytes he _ _, ?run, ?busy⟩
    case run => rw [State.afterByte_running, or_iff_right hidle]
    case busy => rw [State.statusWord_busy, State.afterByte_busy, or_iff_right (not_not_intro he)]
  case outside => exact hostWrite_outside hb he hp _

/-- Settles O35: PAD_APPEND keeps the session open, so each of the four finds it so. -/
theorem dataWAppendsFourBytesLowestFirst : Obligations.DataWAppendsFourBytesLowestFirst := by
  refine ⟨fun _ => rfl, fun s v hb he => ⟨fun hp hf => ?session, fun hp => ⟨none, ?outside⟩⟩⟩
  case session =>
    have h0 : Absorbing s := ⟨hb, hp, hf⟩
    have h1 := h0.afterByte (v.extractLsb' 0 8)
    have h2 := h1.afterByte (v.extractLsb' 8 8)
    have h3 := h2.afterByte (v.extractLsb' 16 8)
    have f1 := State.afterByte_fill (v.extractLsb' 0 8) h0.fill
    have f2 := State.afterByte_fill (v.extractLsb' 8 8) h1.fill
    have f3 := State.afterByte_fill (v.extractLsb' 16 8) h2.fill
    have f4 := State.afterByte_fill (v.extractLsb' 24 8) h3.fill
    have hidle : s.eng ≠ engRun := he ▸ by decide
    have hwrite := h0.hostWrite_bytes he (mkTw 1 3 v)
      [v.extractLsb' 0 8, v.extractLsb' 8 8, v.extractLsb' 16 8, v.extractLsb' 24 8]
    simp only [List.foldl_cons, List.foldl_nil] at hwrite
    refine ⟨_, _, _, _, none, h0.exec_padAppend _, h1.exec_padAppend _, h2.exec_padAppend _, h3.exec_padAppend _,
      hwrite, ?len, by omega, ?run⟩
    case len =>
      simp only [State.afterByte_len]
      bv_omega
    case run =>
      simp only [State.afterByte_running, hidle, false_or]
      omega
  case outside => exact hostWrite_outside hb he hp _

end Sys2Proof.Machine
end

section
/-! PROOFS. The engine's transition as a function of the state (spec/43_host_interface.md R117, R118), and the runs of a busy
engine under a schedule without a reset (R119): what the engine does does not look at the bus, so the reads performed
between its transitions play no part in it. -/

namespace Sys2Proof.Machine

/-! ## The bus and the schedule -/

/-- s with other transactions, another schedule and another response: the model's own fields, which no engine operation
looks at. -/
def State.onBus (q : List Tw) (c : List Turn) (r : Option Word) (s : State) : State :=
  { s with hostq := q, sched := c, resp := r }

section
variable (s : State) (q q' : List Tw) (c c' : List Turn) (r r' : Option Word)

theorem State.onBus_self : s.onBus s.hostq s.sched s.resp = s := rfl

theorem State.onBus_onBus : (s.onBus q c r).onBus q' c' r' = s.onBus q' c' r' := rfl

theorem State.takeTurn_eq_onBus : s.takeTurn = s.onBus s.hostq s.sched.tail s.resp := rfl

@[simp] theorem State.onBus_broken : (s.onBus q c r).broken = s.broken := rfl

@[simp] theorem State.onBus_eng : (s.onBus q c r).eng = s.eng := rfl

@[simp] theorem State.onBus_hs : (s.onBus q c r).hs = s.hs := rfl

end

/-! ## The engine's transition -/

/-- The step operation at STEP, with the function of its round or band (R88, R106). -/
def State.blockStep (s : State) : State :=
  if s.alg = 0 then s.md5Step (md5Function s.stepNo.toNat)
  else s.sha1Step (sha1Function s.stepNo.toNat) (sha1Constant s.stepNo.toNat)

/-- The chaining operation of the algorithm (R94, R112). -/
def State.chainBlock (s : State) : State := if s.alg = 0 then s.chainMd5 else s.chainSha1

/-- What the completion rule leaves (R118). -/
def State.completed (s : State) : State :=
  if s.fseq then s.sendBlock s.lengthBuf false s.fill else { s with eng := engIdle }

/-- What the engine's one enabled transition leaves, the turn aside (`step_engineNext`). -/
def State.engineNext (s : State) : State :=
  if s.eng = engRun then s.blockStep else s.chainBlock.completed

theorem State.completeBlock_eq (s : State) : s.completeBlock = .ok s.completed := by
  unfold State.completed
  split
  · next hq => exact State.completeBlock_sends hq
  · next hq => exact State.completeBlock_last (by simpa using hq)

theorem alg_eq_one {a : BitVec 1} (h : a ≠ 0) : a = 1 := by
  revert a
  decide

section
variable {s : State}

/-- The operation that FSEL selects has the function of the round: both are chosen by STEP div 16. -/
theorem exec_md5Step_of_fsel (hb : s.broken = none) (he : s.eng = engRun) (ha : s.alg = 0) (hlt : s.stepNo.toNat < 64) :
    exec (stepOfFsel s.fsel s.stepNo) s = .next (s.md5Step (md5Function s.stepNo.toNat)) := by
  obtain ⟨hF, hG, hH, hI⟩ := fselOf_md5 s.stepNo
  have htrig {fsel fn} (h : fselOf 0 s.stepNo = fsel) := md5Step_triggered (fn := fn) hb he ha h
  rw [State.fsel, ha, md5Function]
  split_ifs with h16 h32 h48
  · rw [hF h16]; exact htrig (hF h16)
  · rw [hG (by omega) h32]; exact htrig (hG (by omega) h32)
  · rw [hH (by omega) h48]; exact htrig (hH (by omega) h48)
  · rw [hI (by omega) hlt]; exact htrig (hI (by omega) hlt)

/-- The operation that FSEL selects has the function and constant of the band: all are chosen by STEP div 20. -/
theorem exec_sha1Step_of_fsel (hb : s.broken = none) (he : s.eng = engRun) (ha : s.alg = 1)
    (hlt : s.stepNo.toNat < 80) :
    exec (stepOfFsel s.fsel s.stepNo) s =
      .next (s.sha1Step (sha1Function s.stepNo.toNat) (sha1Constant s.stepNo.toNat)) := by
  obtain ⟨hCh, hPar1, hMaj, hPar2⟩ := fselOf_sha1 s.stepNo
  have htrig {fsel fn k} (h : fselOf 1 s.stepNo = fsel) := sha1Step_triggered (fn := fn) (k := k) hb he ha h
  rw [State.fsel, ha, sha1Function, sha1Constant]
  split_ifs with h20 h40 h60
  · rw [hCh h20]; exact htrig (hCh h20)
  · rw [hPar1 (by omega) h40]; exact htrig (hPar1 (by omega) h40)
  · rw [hMaj (by omega) h60]; exact htrig (hMaj (by omega) h60)
  · rw [hPar2 (by omega) hlt]; exact htrig (hPar2 (by omega) hlt)

theorem exec_blockStep (hb : s.broken = none) (he : s.eng = engRun) :
    exec (stepOfFsel s.fsel s.stepNo) s = .next s.blockStep := by
  obtain ⟨-, -, hstep, -, -⟩ := (State.broken_eq_none_iff s).mp hb
  have hlt := hstep he
  unfold State.blockStep
  split
  · next ha => exact exec_md5Step_of_fsel hb he ha (by rwa [ha] at hlt)
  · next ha => exact exec_sha1Step_of_fsel hb he (alg_eq_one ha) (by rwa [alg_eq_one ha] at hlt)

theorem exec_chainBlock (hb : s.broken = none) (he : s.eng = engChain) :
    exec (if s.alg = 0 then .md5Chain s.stepNo else .sha1Chain s.stepNo) s = .next s.chainBlock.completed := by
  unfold State.chainBlock
  split
  · next ha => rw [exec_md5Chain_eq hb he ha, State.completeBlock_eq, ofExcept]
  · next ha => rw [exec_sha1Chain_eq hb he (alg_eq_one ha), State.completeBlock_eq, ofExcept]

end

/-! ## The engine does not look at the bus -/

section
variable (s : State) (q : List Tw) (c : List Turn) (r : Option Word)

theorem State.blockStep_onBus : (s.onBus q c r).blockStep = s.blockStep.onBus q c r := by
  rw [State.blockStep, State.blockStep, apply_ite (State.onBus q c r)]
  rfl

theorem State.chainBlock_onBus : (s.onBus q c r).chainBlock = s.chainBlock.onBus q c r := by
  rw [State.chainBlock, State.chainBlock, apply_ite (State.onBus q c r)]
  rfl

theorem State.dispatchBlock_onBus : (s.onBus q c r).dispatchBlock = s.dispatchBlock.onBus q c r := by
  by_cases ha : s.alg = 0
  · rw [State.dispatchBlock, State.dispatchBlock, if_pos ha, if_pos (show (s.onBus q c r).alg = 0 from ha)]
    rfl
  · rw [State.dispatchBlock, State.dispatchBlock, if_neg ha, if_neg (show (s.onBus q c r).alg ≠ 0 from ha)]
    rfl

theorem State.completed_onBus : (s.onBus q c r).completed = s.completed.onBus q c r := by
  have hsend : (s.onBus q c r).sendBlock s.lengthBuf false s.fill =
      (s.sendBlock s.lengthBuf false s.fill).onBus q c r :=
    congrArg (fun t : State => { t with fseq := false, fill := s.fill })
      (({ s with buf := s.lengthBuf } : State).dispatchBlock_onBus q c r)
  unfold State.completed
  rw [apply_ite (State.onBus q c r), ← hsend]
  rfl

theorem State.engineNext_onBus : (s.onBus q c r).engineNext = s.engineNext.onBus q c r := by
  unfold State.engineNext
  rw [State.blockStep_onBus, State.chainBlock_onBus, State.completed_onBus, State.onBus_eng,
    apply_ite (State.onBus q c r)]

theorem State.engineNext_keeps_bus :
    s.engineNext.hostq = s.hostq ∧ s.engineNext.sched = s.sched ∧ s.engineNext.resp = s.resp := by
  have hbus : s.engineNext = s.engineNext.onBus s.hostq s.sched s.resp := s.engineNext_onBus s.hostq s.sched s.resp
  exact ⟨(congrArg State.hostq hbus :), (congrArg State.sched hbus :), (congrArg State.resp hbus :)⟩

theorem State.engineNext_takeTurn : s.takeTurn.engineNext = s.engineNext.takeTurn := by
  obtain ⟨hq, hc, hr⟩ := s.engineNext_keeps_bus
  rw [State.takeTurn_eq_onBus, State.engineNext_onBus, State.takeTurn_eq_onBus, hq, hc, hr]

theorem State.iterate_engineNext_onBus (n : Nat) :
    State.engineNext^[n] (s.onBus q c r) = (State.engineNext^[n] s).onBus q c r :=
  (Function.Semiconj.iterate_right (f := State.onBus q c r)
    (fun t => (t.engineNext_onBus q c r).symm) n s).symm

end

/-! ## A step of a busy machine -/

/-- The engine is busy, in a state that shows no broken invariant. -/
structure Busy (s : State) : Prop where
  unbroken : s.broken = none
  notIdle : s.eng ≠ engIdle

theorem Busy.onBus {s : State} (h : Busy s) {q : List Tw} {c : List Turn} {r : Option Word} : Busy (s.onBus q c r) :=
  ⟨h.unbroken, h.notIdle⟩

section
variable {s : State} (h : Busy s)
include h

theorem step_engineNext (ht : s.nextTurn = .engine) : step s = .next s.engineNext.takeTurn := by
  rw [step_engine h.unbroken ht, ← State.engineNext_takeTurn, State.engineNext, State.takeTurn_eng]
  obtain hidle | hrun | hchain := eng_cases h.unbroken
  · exact absurd hidle h.notIdle
  · rw [engineTransition_run h.unbroken hrun, if_pos hrun]
    exact exec_blockStep (s := s.takeTurn) h.unbroken hrun
  · rw [engineTransition_chain hchain, if_neg (show s.eng ≠ engRun from hchain ▸ by decide)]
    exact exec_chainBlock (s := s.takeTurn) h.unbroken hchain

/-- Without a reset the engine moves, or the host on a turn of the schedule (R119). -/
theorem nextTurn_of_noReset (hn : noReset s.sched = true) :
    s.nextTurn = .engine ∨ (s.nextTurn = .host ∧ s.sched ≠ []) := by
  unfold State.nextTurn
  split
  · next keeps rest hs => simp [hs, noReset] at hn
  · next rest hs =>
    split
    · exact .inr ⟨rfl, by simp [hs]⟩
    · exact .inl rfl
  · exact .inl (if_neg h.notIdle)
  · exact .inl (if_neg h.notIdle)

end

theorem noReset_tail {c : List Turn} (h : noReset c = true) : noReset c.tail = true := by
  cases c with
  | nil => rfl
  | cons u rest =>
    rw [noReset, List.all_cons, Bool.and_eq_true] at h
    exact h.2

/-! ## Runs of a busy engine -/

theorem core_run_succ {s t : State} (h : step s = .next t) (k : Nat) :
    Sys2Proof.core.run (k + 1) s = Sys2Proof.core.run k t := by
  have hcore : Sys2Proof.core.step s = .next t := h
  simp only [Host.Core.run, hcore]

/-- From s, n engine transitions and the reads performed before the last of them: they leave what the engine alone would
leave, and every state before is one of the engine's states before, the bus and the schedule aside. -/
def EngineRuns (n : Nat) (s : State) : Prop :=
  ∃ (reads rest : List Tw) (r : Option Word), s.hostq = reads ++ rest ∧ (∀ tw ∈ reads, isRead tw = true) ∧
    (∀ k < n + reads.length, ∃ i < n, ∃ q c r',
      Sys2Proof.core.run k s = .next ((State.engineNext^[i] s).onBus q c r')) ∧
    Sys2Proof.core.run (n + reads.length) s =
      .next ((State.engineNext^[n] s).onBus rest (s.sched.drop (n + reads.length)) r)

section
variable {s : State} {n : Nat}

theorem EngineRuns.zero : EngineRuns 0 s :=
  ⟨[], s.hostq, s.resp, rfl, by simp, by simp, rfl⟩

theorem EngineRuns.engine (hstep : step s = .next s.engineNext.takeTurn) (h : EngineRuns n s.engineNext.takeTurn) :
    EngineRuns (n + 1) s := by
  obtain ⟨reads, rest, r, hq, hreads, hbefore, hlast⟩ := h
  have hiter (i : Nat) (q c r') : (State.engineNext^[i] s.engineNext.takeTurn).onBus q c r' =
      (State.engineNext^[i + 1] s).onBus q c r' := by
    rw [State.takeTurn_eq_onBus, State.iterate_engineNext_onBus, State.onBus_onBus, Function.iterate_succ_apply]
  obtain ⟨hkeepq, hkeepc, -⟩ := s.engineNext_keeps_bus
  refine ⟨reads, rest, r, hkeepq.symm.trans hq, hreads, fun k hk => ?before, ?last⟩
  case before =>
    cases k with
    | zero => exact ⟨0, by omega, s.hostq, s.sched, s.resp, rfl⟩
    | succ k =>
      obtain ⟨i, hi, q, c, r', hrun⟩ := hbefore k (by omega)
      exact ⟨i + 1, by omega, q, c, r', by rw [core_run_succ hstep, hrun, hiter]⟩
  case last =>
    rw [Nat.add_right_comm, core_run_succ hstep, hlast, hiter, State.takeTurn_sched, hkeepc,
      List.drop_tail]

/-- The first transition is a read, for which the engine still has all its transitions to make. -/
theorem EngineRuns.read {tw : Tw} {q : List Tw} {v : Option Word} (hq : s.hostq = tw :: q) (htw : isRead tw = true)
    (hstep : step s = .next (s.onBus q s.sched.tail v)) (h : EngineRuns (n + 1) (s.onBus q s.sched.tail v)) :
    EngineRuns (n + 1) s := by
  obtain ⟨reads, rest, r, hq', hreads, hbefore, hlast⟩ := h
  have hq'' : q = reads ++ rest := hq'
  refine ⟨tw :: reads, rest, r, by rw [hq, hq'', List.cons_append], by simpa [htw] using hreads, fun k hk => ?before,
    ?last⟩
  case before =>
    cases k with
    | zero => exact ⟨0, by omega, s.hostq, s.sched, s.resp, rfl⟩
    | succ k =>
      rw [List.length_cons] at hk
      obtain ⟨i, hi, q', c, r', hrun⟩ := hbefore k (by omega)
      exact ⟨i, hi, q', c, r', by rw [core_run_succ hstep, hrun, State.iterate_engineNext_onBus, State.onBus_onBus]⟩
  case last =>
    rw [List.length_cons, ← Nat.add_assoc, core_run_succ hstep, hlast, State.iterate_engineNext_onBus, State.onBus_onBus,
      ← List.drop_tail]
    rfl

end

/-- R119: under every schedule without a reset, as long as the engine is busy, it makes its transitions: each turn is one
of them, or a read, which uses up a turn of the schedule. -/
theorem engineRuns (n : Nat) (s : State) (hn : noReset s.sched = true)
    (hbusy : ∀ i < n, Busy (State.engineNext^[i] s)) : EngineRuns n s := by
  match n with
  | 0 => exact .zero
  | n + 1 =>
    have hs : Busy s := hbusy 0 (Nat.succ_pos n)
    obtain ht | ⟨ht, hne⟩ := nextTurn_of_noReset hs hn
    · refine .engine (step_engineNext hs ht) (engineRuns n _ ?noReset fun i hi => ?busy)
      case noReset =>
        obtain ⟨-, hc, -⟩ := s.engineNext_keeps_bus
        rw [State.takeTurn_sched, hc]
        exact noReset_tail hn
      case busy =>
        rw [State.takeTurn_eq_onBus, State.iterate_engineNext_onBus, ← Function.iterate_succ_apply]
        exact (hbusy (i + 1) (by omega)).onBus
    · obtain ⟨tw, rest, v, hq, htw, hstep⟩ := step_read_while_busy hs.unbroken hs.notIdle ht
      have hshorter : s.sched.tail.length < s.sched.length := by
        have := List.length_pos_of_ne_nil hne
        rw [List.length_tail]
        omega
      refine .read hq htw hstep (engineRuns (n + 1) _ (noReset_tail hn) fun i hi => ?busy)
      case busy =>
        rw [State.iterate_engineNext_onBus]
        exact (hbusy i hi).onBus
termination_by n + s.sched.length
decreasing_by
  · obtain ⟨-, hc, -⟩ := s.engineNext_keeps_bus
    rw [State.takeTurn_sched, hc, List.length_tail]
    omega
  · exact Nat.add_lt_add_left hshorter _

end Sys2Proof.Machine
end

section
/-! PROOFS. A block from its dispatch to its completion (spec/41_md5.md R93..R95, 42_sha1.md R101, R111..R113): the state
after each of its steps is a pure function of the state that dispatch() leaves (`State.blockAt`), and the chaining after
the last of them leaves the compression function in HS. -/

namespace Sys2Proof.Machine

/-! ## The rounds of the two algorithms -/

section
variable (x : Vector Word 16) (w : Vector Word 5) (e : Word) (n : Nat)

theorem md5Rounds_succ : md5Rounds x w (n + 1) = md5Round1 x (md5Rounds x w n) n := by
  rw [md5Rounds, List.range_succ, List.foldl_append]
  rfl

theorem sha1Rounds_succ (ws : List Word) : sha1Rounds ws w (n + 1) = sha1Round1 ws (sha1Rounds ws w n) n := by
  rw [sha1Rounds, List.range_succ, List.foldl_append]
  rfl

theorem sha1Round1_eq {ws : List Word} {t : Nat} {wt : Word} (h : ws.getD t 0 = wt) :
    sha1Round1 ws w t =
      #v[sha1StepValue (sha1Function t) (sha1Constant t) wt w[0] w[1] w[2] w[3] w[4], w[0], rotl32 w[1] 30, w[2],
        w[3]] := by
  rw [← h]
  rfl

theorem windowAfter_succ : windowAfter x (n + 1) = sha1Window (windowAfter x n) n := by
  rw [windowAfter, List.range_succ, List.foldl_append]
  rfl

theorem md5Rounds_getElem_four : (md5Rounds x w n)[4] = w[4] := by
  induction n with
  | zero => rfl
  | succ n ih => rw [md5Rounds_succ, ← ih]; rfl

theorem vector_set_four : w.set 4 e = #v[w[0], w[1], w[2], w[3], e] := by
  refine Vector.ext fun j hj => ?_
  rw [Vector.getElem_set]
  interval_cases j <;> rfl

/-- WK[4] plays no part in an MD5 step. -/
theorem md5Round1_set_four : md5Round1 x (w.set 4 e) n = (md5Round1 x w n).set 4 e := by
  simp only [md5Round1, Vector.getElem_set, OfNat.ofNat_ne_zero, if_true]
  rfl

theorem md5Rounds_set_four : md5Rounds x (w.set 4 e) n = (md5Rounds x w n).set 4 e := by
  induction n with
  | zero => rfl
  | succ n ih => rw [md5Rounds_succ, md5Rounds_succ, ih, md5Round1_set_four]

end

/-! ## The window of the SHA-1 schedule (R101) -/

section
variable (x : Vector Word 16) {t k : Nat}

/-- The word of step t is the schedule's, where the window holds the schedule's words before it. -/
theorem sha1Word_eq_of_window {mw : Vector Word 16} (ht : t < 80)
    (h : ∀ k, t ≤ k + 16 → k < max t 16 → mw[Fin.ofNat 16 k] = (sha1Schedule x).getD k 0) :
    sha1Word mw t = (sha1Schedule x).getD t 0 := by
  obtain hle | hge : t ≤ 15 ∨ 16 ≤ t := by omega
  · rw [sha1Word_of_le hle, h t (by omega) (by omega)]
  · have hplace : mw[Fin.ofNat 16 t] = mw[Fin.ofNat 16 (t - 16)] :=
      congrArg (fun j : Fin 16 => mw[j]) (Fin.ext (Nat.mod_eq_sub_mod hge))
    rw [sha1Word_of_ge hge, hplace, h (t - 3) (by omega) (by omega), h (t - 8) (by omega) (by omega),
      h (t - 14) (by omega) (by omega), h (t - 16) (by omega) (by omega), sha1Schedule_getD_recurrence x hge (by omega),
      sha1Recurrence]

/-- Before step t the window has, at its place modulo 16, every word of the schedule from t - 16 on that the block holds
or the steps before t have produced. -/
theorem windowAfter_getElem (ht : t ≤ 80) (hlo : t ≤ k + 16) (hhi : k < max t 16) :
    (windowAfter x t)[Fin.ofNat 16 k] = (sha1Schedule x).getD k 0 := by
  induction t generalizing k with
  | zero =>
    have hk : k < 16 := by omega
    have hplace : Fin.ofNat 16 k = ⟨k, hk⟩ := Fin.ext (Nat.mod_eq_of_lt hk)
    exact (congrArg (fun j : Fin 16 => x[j]) hplace).trans (sha1Schedule_getD_block x ⟨k, hk⟩).symm
  | succ t ih =>
    rw [windowAfter_succ]
    obtain hle | hge : t ≤ 15 ∨ 16 ≤ t := by omega
    · rw [sha1Window_of_le hle]
      exact ih (by omega) (by omega) (by omega)
    · rw [sha1Window_of_ge hge]
      obtain hnew | hold : k = t ∨ k < t := by omega
      · rw [hnew, Fin.getElem_fin, Vector.getElem_set_self]
        exact sha1Word_eq_of_window x (by omega) fun k hlo hhi => ih (by omega) hlo hhi
      · have hne : (Fin.ofNat 16 t).val ≠ (Fin.ofNat 16 k).val := by
          simp only [Fin.ofNat]
          omega
        rw [Fin.getElem_fin, Vector.getElem_set_ne _ _ hne]
        exact ih (by omega) (by omega) (by omega)

/-- The Wt of step t is W[t] of R100. -/
theorem sha1Word_windowAfter (ht : t < 80) : sha1Word (windowAfter x t) t = (sha1Schedule x).getD t 0 :=
  sha1Word_eq_of_window x ht fun _ hlo hhi => windowAfter_getElem x (by omega) hlo hhi

end

/-! ## The state after each step of a block -/

/-- WK after n steps of a block with words x, from WK = w. -/
def roundsOf (alg : BitVec 1) (x : Vector Word 16) (w : Vector Word 5) (n : Nat) : Vector Word 5 :=
  if alg = 0 then md5Rounds x w n else sha1Rounds (sha1Schedule x) w n

/-- MW after n steps of a block with words x. -/
def windowOf (alg : BitVec 1) (x : Vector Word 16) (n : Nat) : Vector Word 16 :=
  if alg = 0 then x else windowAfter x n

/-- The state after n steps of the block that stands in u at step 0 (`iterate_engineNext`). -/
def State.blockAt (n : Nat) (u : State) : State :=
  { u with
    wk := roundsOf u.alg u.mw u.wk n
    mw := windowOf u.alg u.mw n
    stepNo := BitVec.ofNat 7 n
    eng := if n = stepsOf u.alg then engChain else engRun }

theorem stepsOf_le (alg : BitVec 1) : stepsOf alg ≤ 80 := by
  unfold stepsOf
  split <;> omega

section
variable {u : State} {n : Nat}

theorem State.blockAt_zero (he : u.eng = engRun) (h0 : u.stepNo = 0) : u.blockAt 0 = u := by
  have hne : ¬ 0 = stepsOf u.alg := by
    unfold stepsOf
    split <;> omega
  have hwk : roundsOf u.alg u.mw u.wk 0 = u.wk := ite_self _
  have hmw : windowOf u.alg u.mw 0 = u.mw := ite_self _
  rw [State.blockAt, hwk, hmw, if_neg hne, ← he]
  exact congrArg (fun i => { u with stepNo := i }) h0.symm

theorem State.blockAt_stepNo (hn : n ≤ 80) : (u.blockAt n).stepNo.toNat = n := by
  change (BitVec.ofNat 7 n).toNat = n
  rw [BitVec.toNat_ofNat]
  omega

theorem State.blockAt_running (hn : n < stepsOf u.alg) : (u.blockAt n).eng = engRun := if_neg (by omega)

theorem State.blockAt_chaining : (u.blockAt (stepsOf u.alg)).eng = engChain := if_pos rfl

theorem State.blockAt_md5 (ha : u.alg = 0) (n : Nat) :
    (u.blockAt n).wk = md5Rounds u.mw u.wk n ∧ (u.blockAt n).mw = u.mw := ⟨if_pos ha, if_pos ha⟩

theorem State.blockAt_sha1 (ha : u.alg = 1) (n : Nat) :
    (u.blockAt n).wk = sha1Rounds (sha1Schedule u.mw) u.wk n ∧ (u.blockAt n).mw = windowAfter u.mw n :=
  have hne : u.alg ≠ 0 := ha ▸ by decide
  ⟨if_neg hne, if_neg hne⟩

theorem State.blockStep_frame (s : State) :
    s.blockStep =
      { s with
        wk := s.blockStep.wk, mw := s.blockStep.mw, stepNo := s.stepNo + 1, eng := s.blockStep.eng } := by
  unfold State.blockStep
  split <;> rfl

/-- The last step of a block hands over to the chaining (R93, R111). -/
theorem State.blockStep_eng {s : State} (he : s.eng = engRun) :
    s.blockStep.eng = if s.stepNo.toNat + 1 = stepsOf s.alg then engChain else engRun := by
  unfold State.blockStep stepsOf
  split
  · rw [State.md5Step_eng_of_run he]
    exact if_congr (by omega) rfl rfl
  · rw [State.sha1Step_eng_of_run he]
    exact if_congr (by omega) rfl rfl

/-- A step of the machine is a round of the algorithm (R88, R106), and its window that of the schedule (R101). -/
theorem State.blockStep_blockAt_words (hn : n < stepsOf u.alg) :
    (u.blockAt n).blockStep.wk = (u.blockAt (n + 1)).wk ∧ (u.blockAt n).blockStep.mw = (u.blockAt (n + 1)).mw := by
  have hle := stepsOf_le u.alg
  have hstep : (u.blockAt n).stepNo.toNat = n := State.blockAt_stepNo (by omega)
  by_cases ha : u.alg = 0
  · obtain ⟨hwk, hmw⟩ := State.blockAt_md5 ha n
    obtain ⟨hwk', hmw'⟩ := State.blockAt_md5 ha (n + 1)
    rw [State.blockStep, if_pos (show (u.blockAt n).alg = 0 from ha), State.md5Step_wk, State.md5Step_mw, hstep, hwk',
      md5Rounds_succ, ← hwk, hmw', hmw]
    exact ⟨rfl, rfl⟩
  · obtain ⟨hwk, hmw⟩ := State.blockAt_sha1 (alg_eq_one ha) n
    obtain ⟨hwk', hmw'⟩ := State.blockAt_sha1 (alg_eq_one ha) (n + 1)
    have hword : (sha1Schedule u.mw).getD n 0 = sha1Word (u.blockAt n).mw n := by
      rw [hmw, sha1Word_windowAfter u.mw (by omega)]
    rw [State.blockStep, if_neg (show (u.blockAt n).alg ≠ 0 from ha), State.sha1Step_wk, State.sha1Step_mw, hstep, hwk',
      sha1Rounds_succ, ← hwk, sha1Round1_eq _ hword, hmw', windowAfter_succ, hmw]
    exact ⟨rfl, rfl⟩

theorem State.blockStep_blockAt (hn : n < stepsOf u.alg) : (u.blockAt n).blockStep = u.blockAt (n + 1) := by
  have hle := stepsOf_le u.alg
  obtain ⟨hwk, hmw⟩ := State.blockStep_blockAt_words hn
  have hstep : (u.blockAt n).stepNo + 1 = BitVec.ofNat 7 (n + 1) := (BitVec.ofNat_add ..).symm
  rw [State.blockStep_frame, State.blockStep_eng (State.blockAt_running hn), State.blockAt_stepNo (by omega), hwk, hmw,
    hstep]
  rfl

/-- The engine's transitions from the start of a block, up to its last step. -/
theorem iterate_engineNext (he : u.eng = engRun) (h0 : u.stepNo = 0) (hn : n ≤ stepsOf u.alg) :
    State.engineNext^[n] u = u.blockAt n := by
  induction n with
  | zero => exact (State.blockAt_zero he h0).symm
  | succ n ih =>
    rw [Function.iterate_succ_apply', ih (by omega), State.engineNext, if_pos (State.blockAt_running (by omega)),
      State.blockStep_blockAt (by omega)]

theorem State.blockAt_eng_cases (n : Nat) (u : State) : (u.blockAt n).eng = engRun ∨ (u.blockAt n).eng = engChain :=
  (ite_eq_or_eq ..).symm

theorem State.blockAt_busy (hb : u.broken = none) (hn : n ≤ stepsOf u.alg) : Busy (u.blockAt n) := by
  obtain ⟨-, hphase, -, -, herr⟩ := (State.broken_eq_none_iff u).mp hb
  have hlegal : (u.blockAt n).eng ≠ 3 ∧ (u.blockAt n).eng ≠ engIdle := by
    obtain hrun | hchain := u.blockAt_eng_cases n
    · rw [hrun]; decide
    · rw [hchain]; decide
  have hinRange : (u.blockAt n).eng = engRun → (u.blockAt n).stepNo.toNat < stepsOf u.alg := by
    intro hrun
    have hne : n ≠ stepsOf u.alg := by
      rintro rfl
      rw [State.blockAt_chaining] at hrun
      cases hrun
    have := stepsOf_le u.alg
    rw [State.blockAt_stepNo (by omega)]
    omega
  obtain ⟨hengLegal, hnotIdle⟩ := hlegal
  exact ⟨(State.broken_eq_none_iff _).mpr ⟨hengLegal, hphase, hinRange, fun _ => hnotIdle, herr⟩, hnotIdle⟩

/-- The last transition of a block chains and completes it. -/
theorem iterate_engineNext_last (he : u.eng = engRun) (h0 : u.stepNo = 0) :
    State.engineNext^[stepsOf u.alg + 1] u = (u.blockAt (stepsOf u.alg)).chainBlock.completed := by
  have hne : (u.blockAt (stepsOf u.alg)).eng ≠ engRun := State.blockAt_chaining ▸ by decide
  rw [Function.iterate_succ_apply', iterate_engineNext he h0 le_rfl, State.engineNext, if_neg hne]

end

/-! ## The chaining and the completion of a block -/

theorem State.chainBlock_eq (s : State) : s.chainBlock = { s with hs := s.chainBlock.hs } := by
  unfold State.chainBlock
  split <;> rfl

theorem State.lengthBuf_block (s : State) :
    (List.range 64).map s.lengthBuf.read = List.replicate 56 0 ++ lengthBytes s.alg s.bitlen := by
  refine List.ext_getElem (by simp) fun a ha _ => ?_
  have ha64 : a < 64 := by simpa using ha
  rw [List.getElem_map, List.getElem_range, State.read_lengthBuf]
  split_ifs with h56
  · rw [List.getElem_append_left (by simpa using h56), List.getElem_replicate]
  · have hfield : a - 56 < (lengthBytes s.alg s.bitlen).length := by
      rw [lengthBytes_length]
      omega
    rw [List.getElem_append_right (by simpa using h56), List.getD_eq_getElem _ _ hfield]
    simp only [List.length_replicate]

section
variable {s u : State}

/-- Everything dispatch() as an operation does (R71): it is never over a block still in flight. -/
theorem exec_dispatch_cases (hd : exec .dispatch s = .next u) :
    u = s.dispatchBlock ∧ u.broken = none ∧ u.eng = engRun ∧ u.stepNo = 0 := by
  rw [exec_dispatch] at hd
  obtain ⟨hb, -, hact⟩ := whenTriggered_cases hd
  cases hact
  exact ⟨rfl, State.dispatchBlock_unbroken hb, State.dispatchBlock_eng s, State.dispatchBlock_stepNo s⟩

/-- After the last step of a dispatched block, chaining leaves the compression function in HS (R95, R113): SHA1_LOAD puts
HS into WK, and MD5_LOAD puts all of it there but HS[4], on which the MD5 rounds do not depend. -/
theorem chainBlock_blockAt_hs :
    (s.dispatchBlock.blockAt (stepsOf s.alg)).chainBlock.hs = compress s.alg s.hs s.bufBlock := by
  have hhs : (s.dispatchBlock.blockAt (stepsOf s.alg)).hs = s.hs := State.dispatchBlock_hs s
  by_cases ha : s.alg = 0
  · have hu : s.dispatchBlock.alg = 0 := by rw [State.dispatchBlock_alg, ha]
    have hwk : s.dispatchBlock.wk = s.hs.set 4 s.wk[4] := by
      rw [State.dispatchBlock_wk, if_pos ha, State.loadMd5_wk, vector_set_four]
    have hmw : s.dispatchBlock.mw = leWords s.bufBlock := by rw [State.dispatchBlock_words, wordsOf, if_pos ha]
    obtain ⟨hrounds, -⟩ := State.blockAt_md5 hu (stepsOf s.alg)
    rw [hwk, hmw, md5Rounds_set_four] at hrounds
    rw [State.chainBlock, if_pos (show (s.dispatchBlock.blockAt _).alg = 0 from hu), State.chainMd5_hs, compress,
      if_pos ha, md5Compress, hrounds, hhs, ha]
    simp only [Vector.getElem_set]
    rfl
  · have hu : s.dispatchBlock.alg = 1 := by rw [State.dispatchBlock_alg, alg_eq_one ha]
    have hwk : s.dispatchBlock.wk = s.hs := by rw [State.dispatchBlock_wk, if_neg ha, State.loadSha1_wk]
    have hmw : s.dispatchBlock.mw = beWords s.bufBlock := by rw [State.dispatchBlock_words, wordsOf, if_neg ha]
    have hne : (s.dispatchBlock.blockAt (stepsOf s.alg)).alg ≠ 0 := hu ▸ by decide
    obtain ⟨hrounds, -⟩ := State.blockAt_sha1 hu (stepsOf s.alg)
    rw [hwk, hmw] at hrounds
    rw [State.chainBlock, if_neg hne, State.chainSha1_hs, compress, if_neg ha, sha1Compress, hrounds, hhs, alg_eq_one ha]
    rfl

/-- The state after a block of u, chained to HS = h, before its completion. -/
def State.chainedTo (h : Vector Word 5) (u : State) : State := { u.blockAt (stepsOf u.alg) with hs := h }

theorem chainBlock_blockAt_eq :
    (s.dispatchBlock.blockAt (stepsOf s.dispatchBlock.alg)).chainBlock =
      s.dispatchBlock.chainedTo (compress s.alg s.hs s.bufBlock) := by
  rw [← chainBlock_blockAt_hs, ← State.dispatchBlock_alg s]
  exact State.chainBlock_eq _

theorem State.completed_last (hq : s.fseq = false) : s.completed = { s with eng := engIdle } :=
  if_neg (by simp [hq])

theorem State.completed_first (hq : s.fseq = true) : s.completed = s.sendBlock s.lengthBuf false s.fill := if_pos hq

@[simp] theorem State.completed_hs : s.completed.hs = s.hs := by
  unfold State.completed
  split
  · exact State.dispatchBlock_hs _
  · rfl

end

/-- The length block sent at the end of the block of u is what PAD_LENBLOCK makes of it (R74): the steps of the block have
not touched what it is made of, not even WK[4] under MD5. -/
theorem State.lengthBlock_sent {t u : State} {h : Vector Word 5} {q : List Tw} {c : List Turn} {r : Option Word}
    (ht : t = ((u.chainedTo h).sendBlock (u.chainedTo h).lengthBuf false u.fill).onBus q c r) :
    HandedOver { u with hs := t.hs } t ∧ t.bufBlock = List.replicate 56 0 ++ lengthBytes u.alg (8 * u.len) ∧
      t = { u with
        hs := t.hs, buf := t.buf, mw := t.mw, wk := t.wk, stepNo := 0, eng := engRun, fseq := false
        hostq := q, sched := c, resp := r } := by
  have hsent := (u.chainedTo h).handedOver_sendBlock (u.chainedTo h).lengthBuf false u.fill
  have hhs : t.hs = h := by
    rw [ht]
    exact State.dispatchBlock_hs _
  have hkept (ha : u.alg = 0) : (u.chainedTo h).wk[4] = u.wk[4] := by
    obtain ⟨hwk, -⟩ := State.blockAt_md5 ha (stepsOf u.alg)
    rw [State.chainedTo, hwk, md5Rounds_getElem_four]
  refine ⟨?handed, ?block, ?frame⟩
  case handed =>
    obtain ⟨running, first, words, working, working4⟩ := hsent
    rw [hhs, ht]
    refine ⟨running, first, words, working, working4.trans ?_⟩
    change (if u.alg = 0 then _ else _) = if u.alg = 0 then _ else _
    split
    · next ha => exact hkept ha
    · rfl
  case block =>
    have hbuf : t.buf = (u.chainedTo h).lengthBuf := by
      rw [ht]
      exact (u.chainedTo h).sendBlock_buf _ false u.fill
    rw [State.bufBlock, hbuf, State.lengthBuf_block]
    rfl
  case frame =>
    rw [hhs, ht]
    exact congrArg (State.onBus q c r) ((u.chainedTo h).sendBlock_frame (u.chainedTo h).lengthBuf false u.fill)

/-! ## The whole block -/

section
variable {s u : State} (hd : exec .dispatch s = .next u) (hn : noReset s.sched = true)
include hd hn

/-- R119: a dispatched block's transitions, one for each step and the chaining. -/
theorem dispatch_engineRuns : EngineRuns (stepsOf s.alg + 1) u := by
  obtain ⟨rfl, hb, he, h0⟩ := exec_dispatch_cases hd
  refine engineRuns _ _ (by rwa [State.dispatchBlock_sched]) fun i hi => ?_
  have hi' : i ≤ stepsOf s.dispatchBlock.alg := by
    rw [State.dispatchBlock_alg]
    omega
  rw [iterate_engineNext he h0 hi']
  exact State.blockAt_busy hb hi'

/-- The two statements about a dispatched block in one: the block's steps and compression function are those of ALG. -/
theorem dispatch_compresses :
    ∃ (reads rest : List Tw) (t : State), u.hostq = reads ++ rest ∧ (∀ tw ∈ reads, isRead tw = true) ∧
      (∀ k < stepsOf s.alg + 1 + reads.length,
        ∃ v, Sys2Proof.core.run k u = .next v ∧ v.eng ≠ engIdle ∧ v.hs = s.hs) ∧
      Sys2Proof.core.run (stepsOf s.alg + 1 + reads.length) u = .next t ∧ t.hs = compress s.alg s.hs s.bufBlock ∧
      (s.fseq = false → t = { u with
        hs := t.hs, wk := t.wk, mw := windowOf s.alg u.mw (stepsOf s.alg), stepNo := BitVec.ofNat 7 (stepsOf s.alg)
        eng := engIdle
        hostq := rest, sched := u.sched.drop (stepsOf s.alg + 1 + reads.length), resp := t.resp }) ∧
      (s.fseq = true → HandedOver { u with hs := t.hs } t ∧
        t.bufBlock = List.replicate 56 0 ++ lengthBytes s.alg (8 * s.len) ∧
        t = { u with
          hs := t.hs, buf := t.buf, mw := t.mw, wk := t.wk, stepNo := 0, eng := engRun, fseq := false
          hostq := rest, sched := u.sched.drop (stepsOf s.alg + 1 + reads.length), resp := t.resp }) := by
  obtain ⟨reads, rest, r, hq, hreads, hbefore, hlast⟩ := dispatch_engineRuns hd hn
  obtain ⟨rfl, hb, he, h0⟩ := exec_dispatch_cases hd
  have halg : s.dispatchBlock.alg = s.alg := State.dispatchBlock_alg s
  have hdone := iterate_engineNext_last he h0
  rw [chainBlock_blockAt_eq, halg] at hdone
  rw [hdone] at hlast
  refine ⟨reads, rest, _, hq, hreads, fun k hk => ?before, hlast, ?hs, fun hf => ?last, fun hf => ?first⟩
  case before =>
    obtain ⟨i, hi, q, c, r', hrun⟩ := hbefore k hk
    have hi' : i ≤ stepsOf s.dispatchBlock.alg := by
      rw [halg]
      omega
    rw [iterate_engineNext he h0 hi'] at hrun
    exact ⟨_, hrun, (State.blockAt_busy hb hi').notIdle, State.dispatchBlock_hs s⟩
  case hs =>
    rw [State.onBus_hs, State.completed_hs]
    rfl
  case last =>
    have hf' : (s.dispatchBlock.chainedTo (compress s.alg s.hs s.bufBlock)).fseq = false :=
      (State.dispatchBlock_fseq s).trans hf
    rw [State.completed_last hf', ← halg]
    rfl
  case first =>
    have hf' : (s.dispatchBlock.chainedTo (compress s.alg s.hs s.bufBlock)).fseq = true :=
      (State.dispatchBlock_fseq s).trans hf
    rw [State.completed_first hf', ← halg, ← State.dispatchBlock_len s]
    exact State.lengthBlock_sent rfl

end

/-- Settles O52: the steps and the compression function of ALG = 0; an MD5 block leaves MW as it is. -/
theorem md5BlockCompresses : Obligations.Md5BlockCompresses := by
  intro s u hd ha hn
  have h := dispatch_compresses hd hn
  rw [ha] at h
  exact h

/-- Settles O59: the steps and the compression function of ALG = 1. -/
theorem sha1BlockCompresses : Obligations.Sha1BlockCompresses := by
  intro s u hd ha hn
  obtain ⟨reads, rest, t, hq, hreads, hbefore, hlast, hhs, hdone, hfirst⟩ := dispatch_compresses hd hn
  rw [ha] at hbefore hlast hhs hdone hfirst
  refine ⟨reads, rest, t, hq, hreads, hbefore, hlast, hhs, fun hf => ?_, hfirst⟩
  rw [hdone hf]
  rfl

end Sys2Proof.Machine
end

section
/-! PROOFS. The error record (spec/60_exceptions.md): what only an open session accepts (R142). -/

namespace Sys2Proof.Machine

/-- Settles O32: each of the three is a host write under `State.inSession`, which outside a session never reaches the
bytes or the final blocks (`hostWrite_outside`). -/
theorem dataOutsideASessionIsRejected : Obligations.DataOutsideASessionIsRejected := by
  refine fun s v hb he hp => ⟨⟨none, ?dataB⟩, ⟨none, ?dataW⟩, ⟨none, ?finish⟩⟩
  case dataB => rw [exec_dataB, hostWrite_outside hb he hp]
  case dataW => rw [exec_dataW, hostWrite_outside hb he hp]
  case finish => rw [exec_finish, hostWrite_outside hb he hp]

end Sys2Proof.Machine
end

section
/-! PROOFS. Reset (spec/70_reset_and_hazards.md R156): what the host sees of the machine after the reset transition. -/

namespace Sys2Proof.Machine

/-! ## The host's views after a reset -/

section
variable (s : State) (keeps : Bool)

/-- Whatever was in flight, the state after a reset shows no broken invariant, so every read in it is answered. -/
theorem State.takeReset_broken : (s.takeReset keeps).broken = none := by
  rw [State.broken_eq_none_iff, State.takeReset_eng, State.takeReset_phase, State.takeReset_stepNo, State.takeReset_alg,
    State.takeReset_fseq, State.takeReset_errcode]
  decide

theorem State.takeReset_statusWord : (s.takeReset keeps).statusWord = 0 := by
  calc (s.takeReset keeps).statusWord = State.reset.statusWord := rfl
    _ = 0 := by decide

theorem State.takeReset_lenLo : (s.takeReset keeps).lenLo = 0 := by
  rw [State.lenLo, State.takeReset_len]
  decide

theorem State.takeReset_lenHi : (s.takeReset keeps).lenHi = 0 := by
  rw [State.lenHi, State.takeReset_len]
  decide

theorem State.takeReset_digestWord (n : Fin 5) : (s.takeReset keeps).digestWord n = 0 := by
  have hzero : ∀ n : Fin 5, State.reset.hs[n] = 0 := by decide
  rw [State.digestWord, State.takeReset_hs, hzero]

variable {s keeps} in
/-- A read in the state after a reset is answered at once, with the 0 that its register shows there. -/
theorem hostRead_takeReset (value : State → Word) (hv : value (s.takeReset keeps) = 0) :
    hostRead value (s.takeReset keeps) = .next { s.takeReset keeps with resp := some 0 } := by
  rw [hostRead_ok value (s.takeReset_broken keeps), hv]

/-- R156: a DIGEST register reads 0 after a reset. -/
theorem hostRead_digestWord_takeReset (n : Fin 5) :
    hostRead (State.digestWord · n) (s.takeReset keeps) = .next { s.takeReset keeps with resp := some 0 } :=
  hostRead_takeReset (State.digestWord · n) (s.takeReset_digestWord keeps n)

end

/-! ## The reset transition (R156) -/

/-- Settles O13: a reset on the schedule comes before every other transition, and the state it answers is
`State.takeReset`, whose views are those of the reset state. -/
theorem resetTransition : Obligations.ResetTransition := by
  intro s keeps rest hb hs
  have hturn : s.nextTurn = .reset keeps := nextTurn_reset (by rw [hs, List.head?_cons])
  have hdigest := hostRead_digestWord_takeReset s keeps
  exact ⟨s.takeReset keeps, step_reset hb hturn, s.takeReset_hs keeps, s.takeReset_alg keeps, s.takeReset_len keeps,
    s.takeReset_fill keeps, s.takeReset_phase keeps, s.takeReset_eng keeps, s.takeReset_stepNo keeps,
    s.takeReset_fseq keeps, s.takeReset_err keeps, s.takeReset_errcode keeps, fun _ =>
    ⟨hostRead_takeReset State.statusWord (s.takeReset_statusWord keeps),
      hostRead_takeReset State.lenLo (s.takeReset_lenLo keeps),
      hostRead_takeReset State.lenHi (s.takeReset_lenHi keeps),
      hdigest 0, hdigest 1, hdigest 2, hdigest 3, hdigest 4⟩⟩

end Sys2Proof.Machine
end

section
/-! PROOFS. Encoding and decoding (spec/30_encoding.md R54..R58, R63): the decoder is the inverse of the encoder, slot by
slot for the transaction words and round by round for the engine control words, and ABSORB's words append its bytes. -/

namespace Sys2Proof

/-! ## Transaction words (R54..R57) -/

theorem decode_write (slot : Slot) (v : Word) : decode (.tw (mkTw 1 slot v)) = .ok (decodeWrite slot v) := by
  rw [decode, decodeTw_write (twWe_mkTw ..), twSlot_mkTw, twData_mkTw]

theorem decode_read (slot : Slot) (v : Word) : decode (.tw (mkTw 0 slot v)) = .ok (decodeRead slot v) := by
  rw [decode, decodeTw_read (twWe_mkTw ..), twSlot_mkTw, twData_mkTw]

theorem zeroReadSlot_iff (slot : Slot) : zeroReadSlot slot = true ↔
    slot = 0 ∨ slot = 2 ∨ slot = 3 ∨ slot = 6 ∨ slot = 7 ∨ 13 ≤ slot.toNat := by
  simp [zeroReadSlot, or_assoc]

/-- A command with no reserved bit set is one of the five, written out, or illegal (R55). -/
theorem encode_decodeCommand (v : Word) :
    (decodeCommand v).wellFormed = true ∧ encode (decodeCommand v) = some (.tw (mkTw 1 0 v)) := by
  by_cases hres : commandReserved v = 0
  · have hop : ∀ op : BitVec 4, (decodeCommand (0#28 ++ op)).wellFormed = true ∧
        encode (decodeCommand (0#28 ++ op)) = some (.tw (mkTw 1 0 (0#28 ++ op))) := by decide
    rw [eq_append_commandOp hres]
    exact hop (commandOp v)
  · rw [decodeCommand_of_reserved hres]
    exact ⟨(Machine.illegalCommand_iff v).mpr (.inl hres), rfl⟩

theorem encode_decodeWrite (slot : Slot) (v : Word) :
    (decodeWrite slot v).wellFormed = true ∧ encode (decodeWrite slot v) = some (.tw (mkTw 1 slot v)) := by
  have hbad : ∀ k : Slot, k ≠ 0 → k ≠ 2 → k ≠ 3 → badWriteSlot k = true := by decide
  unfold decodeWrite
  split_ifs with h0 h2 h3
  · rw [h0]; exact encode_decodeCommand v
  · rw [h2]; exact ⟨rfl, rfl⟩
  · rw [h3]; exact ⟨rfl, rfl⟩
  · exact ⟨hbad slot h0 h2 h3, rfl⟩

theorem encode_decodeRead (slot : Slot) (v : Word) :
    (decodeRead slot v).wellFormed = true ∧ encode (decodeRead slot v) = some (.tw (mkTw 0 slot v)) := by
  unfold decodeRead
  split_ifs with h1 h4 h5 h8 h9 h10 h11 h12
  case neg =>
    have hzero : zeroReadSlot slot = true := by
      rw [zeroReadSlot_iff]
      bv_omega
    exact ⟨hzero, rfl⟩
  all_goals
    subst slot
    exact ⟨rfl, rfl⟩

theorem encode_decodeTw (w : Tw) : (decodeTw w).wellFormed = true ∧ encode (decodeTw w) = some (.tw w) := by
  have hwe : ∀ b : BitVec 1, b = 1 ∨ b = 0 := by decide
  obtain h | h := hwe (twWe w)
  · have hw := encode_decodeWrite (twSlot w) (twData w)
    rwa [← decodeTw_write h, ← h, mkTw_fields] at hw
  · have hw := encode_decodeRead (twSlot w) (twData w)
    rwa [← decodeTw_read h, ← h, mkTw_fields] at hw

/-! ## Engine control words (R58) -/

/-- A step word decodes to the operation of its round or band. -/
theorem decode_step {alg : BitVec 1} {i : BitVec 7} {fsel : BitVec 3} (hlt : i.toNat < stepsOf alg)
    (hfsel : fselOf alg i = fsel) : decode (.ecw (mkEcw 1 alg i)) = .ok (stepOfFsel fsel i) := by
  simp [decode, decodeEcw, hlt, hfsel]

/-- The MD5 step words, round by round. -/
theorem decode_md5Word (i : BitVec 7) :
    (i.toNat < 16 → decode (.ecw (mkEcw 1 0 i)) = .ok (.md5StepF i)) ∧
      (16 ≤ i.toNat ∧ i.toNat < 32 → decode (.ecw (mkEcw 1 0 i)) = .ok (.md5StepG i)) ∧
      (32 ≤ i.toNat ∧ i.toNat < 48 → decode (.ecw (mkEcw 1 0 i)) = .ok (.md5StepH i)) ∧
      (48 ≤ i.toNat ∧ i.toNat < 64 → decode (.ecw (mkEcw 1 0 i)) = .ok (.md5StepI i)) := by
  obtain ⟨hF, hG, hH, hI⟩ := Machine.fselOf_md5 i
  have hdecode {fsel} (hlt : i.toNat < 64) (h : fselOf 0 i = fsel) := decode_step (alg := 0) hlt h
  exact ⟨fun h => hdecode (by omega) (hF h), fun ⟨hlo, hhi⟩ => hdecode (by omega) (hG hlo hhi),
    fun ⟨hlo, hhi⟩ => hdecode (by omega) (hH hlo hhi), fun ⟨hlo, hhi⟩ => hdecode hhi (hI hlo hhi)⟩

/-- The SHA-1 step words, band by band. -/
theorem decode_sha1Word (t : BitVec 7) :
    (t.toNat < 20 → decode (.ecw (mkEcw 1 1 t)) = .ok (.sha1StepCh t)) ∧
      (20 ≤ t.toNat ∧ t.toNat < 40 → decode (.ecw (mkEcw 1 1 t)) = .ok (.sha1StepPar1 t)) ∧
      (40 ≤ t.toNat ∧ t.toNat < 60 → decode (.ecw (mkEcw 1 1 t)) = .ok (.sha1StepMaj t)) ∧
      (60 ≤ t.toNat ∧ t.toNat < 80 → decode (.ecw (mkEcw 1 1 t)) = .ok (.sha1StepPar2 t)) := by
  obtain ⟨hCh, hPar1, hMaj, hPar2⟩ := Machine.fselOf_sha1 t
  have hdecode {fsel} (hlt : t.toNat < 80) (h : fselOf 1 t = fsel) := decode_step (alg := 1) hlt h
  exact ⟨fun h => hdecode (by omega) (hCh h), fun ⟨hlo, hhi⟩ => hdecode (by omega) (hPar1 hlo hhi),
    fun ⟨hlo, hhi⟩ => hdecode (by omega) (hMaj hlo hhi), fun ⟨hlo, hhi⟩ => hdecode hhi (hPar2 hlo hhi)⟩

/-- A chaining word decodes to the chaining of its algorithm, whatever STEP is. -/
theorem decode_chainWord (alg : BitVec 1) (i : BitVec 7) :
    decode (.ecw (mkEcw 2 alg i)) = .ok (if alg = 0 then .md5Chain i else .sha1Chain i) := by
  simp only [decode, decodeEcw, ecwEng_mkEcw, ecwAlg_mkEcw, ecwStep_mkEcw]
  rw [if_neg (by decide), if_neg (by decide), if_pos trivial]
  split <;> rfl

theorem encode_stepOfFsel (alg : BitVec 1) (i : BitVec 7) (hlt : i.toNat < stepsOf alg) :
    (stepOfFsel (fselOf alg i) i).wellFormed = true ∧
      encode (stepOfFsel (fselOf alg i) i) = some (.ecw (mkEcw 1 alg i)) := by
  revert alg i
  decide

theorem encode_decodeEcw {w : Ecw} {i : Instr} (h : decodeEcw w = .ok i) :
    i.wellFormed = true ∧ encode i = some (.ecw w) := by
  rw [← mkEcw_fields w]
  unfold decodeEcw at h
  split_ifs at h with hidle hrun hstep hchain halg
  · cases h
    rw [hrun]
    exact encode_stepOfFsel _ _ hstep
  · cases h
    rw [hchain, halg]
    exact ⟨rfl, rfl⟩
  · cases h
    rw [hchain, Machine.alg_eq_one halg]
    exact ⟨rfl, rfl⟩

/-! ## The two directions -/

/-- Settles O2, over both encodings. -/
theorem encodeOfDecodeIsTheWord : Obligations.EncodeOfDecodeIsTheWord := by
  intro c i h
  cases c with
  | tw w => cases h; exact encode_decodeTw w
  | ecw w => exact encode_decodeEcw h

/-- Settles O1: an operand in its range decodes by the branch of the decoder that the range names. -/
theorem decodeOfEncodeIsTheInstruction : Obligations.DecodeOfEncodeIsTheInstruction := by
  intro i c hwf henc hsched
  cases i with
  | nop | initMd5 | initSha1 | finish | clearErr => cases henc; decide
  | cmdIllegal v =>
    cases henc
    rw [decode, Machine.decodeTw_illegal hwf]
  | wrBad slot v =>
    cases henc
    rw [decode, Machine.decodeTw_badWrite v hwf]
  | dataB v | dataW v => cases henc; exact decode_write _ v
  | rdStatus v | rdLenLo v | rdLenHi v | rdDigest0 v | rdDigest1 v | rdDigest2 v | rdDigest3 v | rdDigest4 v =>
    cases henc
    exact decode_read _ v
  | rdZero slot v =>
    cases henc
    rw [decode_read, decodeRead_zero v ((zeroReadSlot_iff slot).mp hwf)]
  | md5StepF i =>
    cases henc
    obtain ⟨hF, -, -, -⟩ := decode_md5Word i
    exact hF (by simpa [Instr.wellFormed] using hwf)
  | md5StepG i =>
    cases henc
    obtain ⟨-, hG, -, -⟩ := decode_md5Word i
    exact hG (by simpa [Instr.wellFormed] using hwf)
  | md5StepH i =>
    cases henc
    obtain ⟨-, -, hH, -⟩ := decode_md5Word i
    exact hH (by simpa [Instr.wellFormed] using hwf)
  | md5StepI i =>
    cases henc
    obtain ⟨-, -, -, hI⟩ := decode_md5Word i
    exact hI (by simpa [Instr.wellFormed] using hwf)
  | sha1StepCh t =>
    cases henc
    obtain ⟨hCh, -, -, -⟩ := decode_sha1Word t
    exact hCh (by simpa [Instr.wellFormed] using hwf)
  | sha1StepPar1 t =>
    cases henc
    obtain ⟨-, hPar1, -, -⟩ := decode_sha1Word t
    exact hPar1 (by simpa [Instr.wellFormed] using hwf)
  | sha1StepMaj t =>
    cases henc
    obtain ⟨-, -, hMaj, -⟩ := decode_sha1Word t
    exact hMaj (by simpa [Instr.wellFormed] using hwf)
  | sha1StepPar2 t =>
    cases henc
    obtain ⟨-, -, -, hPar2⟩ := decode_sha1Word t
    exact hPar2 (by simpa [Instr.wellFormed] using hwf)
  | sha1Sched t => exact absurd rfl (hsched t)
  | md5Chain i =>
    cases henc
    exact decode_chainWord 0 i
  | sha1Chain t =>
    cases henc
    exact decode_chainWord 1 t
  | padAppend | dispatch | md5Load | sha1Load | padFinishOne | padFinishTwo | padLenblock => cases henc

/-! ## The engine rows of the opcode table (R58) -/

/-- Settles O4, word by word. -/
theorem engineWordRowsAgreeWithTheSelector : Obligations.EngineWordRowsAgreeWithTheSelector := by
  unfold Obligations.EngineWordRowsAgreeWithTheSelector
  decide

/-- Settles O5: the words are evaluated. -/
theorem writtenWordsDecode : Obligations.WrittenWordsDecode := by
  unfold Obligations.WrittenWordsDecode
  decide

end Sys2Proof

namespace Sys2Proof.Machine

/-! ## ABSORB (R63) -/

/-- The four bytes of a little-endian read are the bytes read, in order (R13). -/
theorem le32bytes_le32 (b0 b1 b2 b3 : Byte) : le32bytes (le32 b0 b1 b2 b3) = [b0, b1, b2, b3] := by
  have h0 : wordByte (le32 b0 b1 b2 b3) 0 = b0 := BitVec.extractLsb'_append_eq_right
  have h1 : wordByte (le32 b0 b1 b2 b3) 1 = b1 :=
    (BitVec.extractLsb'_append_eq_of_le (by decide)).trans BitVec.extractLsb'_append_eq_right
  have h2 : wordByte (le32 b0 b1 b2 b3) 2 = b2 :=
    (BitVec.extractLsb'_append_eq_of_le (by decide)).trans
      ((BitVec.extractLsb'_append_eq_of_le (by decide)).trans BitVec.extractLsb'_append_eq_right)
  have h3 : wordByte (le32 b0 b1 b2 b3) 3 = b3 :=
    (BitVec.extractLsb'_append_eq_of_le (by decide)).trans
      ((BitVec.extractLsb'_append_eq_of_le (by decide)).trans BitVec.extractLsb'_append_eq_left)
  rw [le32bytes, h0, h1, h2, h3]

theorem wordByte_setWidth (b : Byte) : wordByte (b.setWidth 32) 0 = b := by
  rw [wordByte, Nat.mul_zero, ← BitVec.setWidth_eq_extractLsb' (by omega), BitVec.setWidth_setWidth_of_le _ (by omega),
    BitVec.setWidth_eq]

theorem decodeTw_dataW (v : Word) : decodeTw (asmWrite .dataW v) = .dataW v := by
  rw [asmWrite, decodeTw_write (twWe_mkTw ..), twSlot_mkTw, twData_mkTw]
  rfl

theorem decodeTw_dataB (v : Word) : decodeTw (asmWrite .dataB v) = .dataB v := by
  rw [asmWrite, decodeTw_write (twWe_mkTw ..), twSlot_mkTw, twData_mkTw]
  rfl

/-- Settles O6: a whole group of four bytes comes back from its word (`le32bytes_le32`), each byte left over from its own
(`wordByte_setWidth`). -/
theorem absorbExpandsToItsBytes : Obligations.AbsorbExpandsToItsBytes := by
  intro m
  rw [assemble]
  induction m using absorbWords.induct with
  | case1 b0 b1 b2 b3 rest ih =>
    obtain ⟨hall, hbytes⟩ := ih
    simp [absorbWords, isDataWrite, bytesOf, decodeTw_dataW, le32bytes_le32, hall, hbytes]
  | case2 rest hshort =>
    simp [absorbWords, isDataWrite, bytesOf, decodeTw_dataB, wordByte_setWidth, List.flatMap_map]

end Sys2Proof.Machine
end

section
/-! PROOFS. What one instruction does, said once for all of them (spec/43_host_interface.md R116..R128, 40_padding.md
R70..R74): a write is its act with the engine idle and a wait otherwise (`exec_write`), a read answers, and an engine
operation or micro-operation, where it is triggered, leaves `State.afterOp`. What an instruction cannot change is then read
off `State.afterWrite` and `State.afterOp`. -/

namespace Sys2Proof.Machine

/-! ## Writes -/

/-- The instructions that are writes on the bus (R57 items 1 to 4). -/
def isWriteOp : Instr → Bool
  | .nop | .initMd5 | .initSha1 | .finish | .clearErr | .cmdIllegal _ | .dataB _ | .dataW _ | .wrBad _ _ => true
  | _ => false

/-- What a write does once the engine is idle, BUF's bounds included (`exec_write`). -/
def writeAct : Instr → State → Except Fault State
  | .initMd5, s => .ok (s.openSession 0 md5Initial)
  | .initSha1, s => .ok (s.openSession 1 sha1Initial)
  | .finish, s => State.inSession State.closeSession s
  | .clearErr, s => .ok s.clearHostError
  | .cmdIllegal _, s => .ok (s.raiseHostError errIllegalCmd)
  | .dataB v, s => State.inSession (State.appendBytes [wordByte v 0]) s
  | .dataW v, s => State.inSession (State.appendBytes (le32bytes v)) s
  | .wrBad _ _, s => .ok (s.raiseHostError errBadAccess)
  | _, s => .ok s

/-- A write's word is the one that waits on the bus (R116). -/
theorem exec_write {i : Instr} {tw : Tw} (henc : encode i = some (.tw tw)) (hw : isWriteOp i = true) (s : State) :
    exec i s = hostWrite tw (writeAct i) s := by
  cases i with
  | nop | initMd5 | initSha1 | finish | clearErr | cmdIllegal _ | dataB _ | dataW _ | wrBad _ _ => cases henc; rfl
  | _ => cases hw

theorem isRead_mkTw (we : BitVec 1) (slot : Slot) (v : Word) : isRead (mkTw we slot v) = decide (we = 0) := by
  rw [isRead, twWe_mkTw]

/-- The writes are the instructions whose word has WE = 1 (R54). -/
theorem isWriteOp_iff_encode {i : Instr} : isWriteOp i = true ↔ ∃ tw, encode i = some (.tw tw) ∧ isRead tw = false := by
  constructor
  · intro hw
    cases i with
    | nop | initMd5 | initSha1 | finish | clearErr | cmdIllegal _ | dataB _ | dataW _ | wrBad _ _ =>
      exact ⟨_, rfl, isRead_mkTw ..⟩
    | _ => cases hw
  · rintro ⟨tw, henc, hr⟩
    cases i with
    | nop | initMd5 | initSha1 | finish | clearErr | cmdIllegal _ | dataB _ | dataW _ | wrBad _ _ => rfl
    | rdStatus _ | rdLenLo _ | rdLenHi _ | rdDigest0 _ | rdDigest1 _ | rdDigest2 _ | rdDigest3 _ | rdDigest4 _
    | rdZero _ _ =>
      cases henc
      rw [isRead_mkTw] at hr
      cases hr
    | _ => cases henc

/-- FINISH in a session (R123). -/
def State.closed (s : State) : State :=
  { (if s.fill.toNat ≤ 55 then s.sendBlock s.finishOneBuf false 0 else s.sendBlock s.finishTwoBuf true 0) with
    phase := phaseDone }

/-- The bytes appended one after the other (R126, R127). -/
def State.afterBytes (bytes : List Byte) (s : State) : State := bytes.foldl (fun t b => t.afterByte b) s

/-- What only an open session accepts: in one `t`, and otherwise NO_SESSION (R142). -/
def State.ifOpen (t s : State) : State := if s.phase = phaseAbsorb then t else s.raiseHostError errNoSession

/-- What a performed write leaves, inside BUF's bounds (`writeAct_eq`). -/
def State.afterWrite : Instr → State → State
  | .initMd5, s => s.openSession 0 md5Initial
  | .initSha1, s => s.openSession 1 sha1Initial
  | .finish, s => s.closed.ifOpen s
  | .clearErr, s => s.clearHostError
  | .cmdIllegal _, s => s.raiseHostError errIllegalCmd
  | .dataB v, s => (s.afterBytes [wordByte v 0]).ifOpen s
  | .dataW v, s => (s.afterBytes (le32bytes v)).ifOpen s
  | .wrBad _ _, s => s.raiseHostError errBadAccess
  | _, s => s

/-- The writes that store bytes in BUF. -/
def storesBytes : Instr → Bool
  | .finish | .dataB _ | .dataW _ => true
  | _ => false

/-- The write would store a byte past BUF, where no offset exists (R36; log 10). -/
def State.pastBuffer (i : Instr) (s : State) : Bool :=
  storesBytes i && s.phase = phaseAbsorb && 64 ≤ s.fill.toNat

section
variable {s : State}

theorem State.memWrite_past {bytes : List Byte} {a : Nat} (h : 64 < a + bytes.length) :
    s.memWrite a bytes = .error .bufferOffset := if_neg (Nat.not_le.mpr h)

theorem State.appendByte_past (b : Byte) (hf : 64 ≤ s.fill.toNat) : s.appendByte b = .error .bufferOffset := by
  rw [State.appendByte, State.memWrite_past (by simpa using Nat.lt_succ_of_le hf)]
  rfl

theorem State.appendBytes_past (b : Byte) (bs : List Byte) (hf : 64 ≤ s.fill.toNat) :
    State.appendBytes (b :: bs) s = .error .bufferOffset := by
  rw [State.appendBytes, State.appendByte_past b hf]
  rfl

theorem State.finishTwoBlocks_past (hf : 64 ≤ s.fill.toNat) : s.finishTwoBlocks = .error .bufferOffset := by
  unfold State.finishTwoBlocks
  dsimp only
  rw [State.memWrite_past (by simpa using Nat.lt_succ_of_le hf)]
  rfl

theorem State.closeSession_past (hf : 64 ≤ s.fill.toNat) : s.closeSession = .error .bufferOffset := by
  rw [State.closeSession, State.finishBlocks, if_neg (show ¬ s.fill.toNat ≤ 55 by omega), State.finishTwoBlocks_past hf]
  rfl

theorem State.closeSession_eq (hf : s.fill.toNat ≤ 63) : s.closeSession = .ok s.closed := by
  unfold State.closed
  split_ifs with h55
  · exact State.closeSession_one h55
  · exact State.closeSession_two (by omega) hf

/-- An act of an open session that faults past BUF and is total inside it. -/
theorem State.inSession_eq {act : State → Except Fault State} {t : State}
    (hin : s.phase = phaseAbsorb → s.fill.toNat ≤ 63 → act s = .ok t)
    (hpast : 64 ≤ s.fill.toNat → act s = .error .bufferOffset) :
    State.inSession act s =
      if s.phase = phaseAbsorb ∧ 64 ≤ s.fill.toNat then .error .bufferOffset else .ok (t.ifOpen s) := by
  unfold State.ifOpen
  by_cases hp : s.phase = phaseAbsorb
  · rw [inSession_open hp, if_pos hp]
    split_ifs with h
    · exact hpast h.2
    · exact hin hp (Nat.le_of_lt_succ (Nat.not_le.mp fun hf => h ⟨hp, hf⟩))
  · rw [inSession_closed hp, if_neg hp, if_neg (fun h => hp h.1)]

/-- Everything a performed write can do: leave `State.afterWrite`, or stop where it would store past BUF. -/
theorem writeAct_eq (hb : s.broken = none) (i : Instr) :
    writeAct i s = if s.pastBuffer i = true then .error .bufferOffset else .ok (s.afterWrite i) := by
  have hbytes (b : Byte) (bs : List Byte) := State.inSession_eq (s := s)
    (fun hp hf => Absorbing.appendBytes ⟨hb, hp, hf⟩ (b :: bs)) (State.appendBytes_past b bs)
  have hpast {i : Instr} (hi : storesBytes i = true) :
      s.pastBuffer i = true ↔ s.phase = phaseAbsorb ∧ 64 ≤ s.fill.toNat := by
    simp [State.pastBuffer, hi]
  cases i with
  | finish =>
    rw [writeAct, State.inSession_eq (fun _ => State.closeSession_eq) State.closeSession_past]
    exact if_congr (hpast rfl).symm rfl rfl
  | dataB v => exact (hbytes ..).trans (if_congr (hpast rfl).symm rfl rfl)
  | dataW v => exact (hbytes ..).trans (if_congr (hpast rfl).symm rfl rfl)
  | _ => rfl

end

/-! ## Reads -/

/-- The word that a read answers (R129..R132). -/
def readValue : Instr → State → Word
  | .rdStatus _, s => s.statusWord
  | .rdLenLo _, s => s.lenLo
  | .rdLenHi _, s => s.lenHi
  | .rdDigest0 _, s => s.digestWord 0
  | .rdDigest1 _, s => s.digestWord 1
  | .rdDigest2 _, s => s.digestWord 2
  | .rdDigest3 _, s => s.digestWord 3
  | .rdDigest4 _, s => s.digestWord 4
  | _, _ => 0

theorem exec_readOp {i : Instr} (hi : isReadOp i = true) (s : State) : exec i s = hostRead (readValue i) s := by
  cases i with
  | rdStatus _ | rdLenLo _ | rdLenHi _ | rdDigest0 _ | rdDigest1 _ | rdDigest2 _ | rdDigest3 _ | rdDigest4 _
  | rdZero _ _ => rfl
  | _ => cases hi

/-! ## Engine operations and micro-operations -/

/-- The operations with a trigger: the engine operations and the micro-operations (R58, R70..R74, R101). -/
def isTriggeredOp (i : Instr) : Bool := !isWriteOp i && !isReadOp i

/-- The condition that triggers an operation (log 9). -/
def triggerOf : Instr → State → Bool
  | .md5StepF i, s => stepTriggered 0b000 i s
  | .md5StepG i, s => stepTriggered 0b001 i s
  | .md5StepH i, s => stepTriggered 0b010 i s
  | .md5StepI i, s => stepTriggered 0b011 i s
  | .sha1StepCh t, s => stepTriggered 0b100 t s
  | .sha1StepPar1 t, s => stepTriggered 0b101 t s
  | .sha1StepMaj t, s => stepTriggered 0b110 t s
  | .sha1StepPar2 t, s => stepTriggered 0b111 t s
  | .sha1Sched t, s => s.eng = engRun && s.alg = 1 && s.stepNo = t
  | .md5Chain i, s => chainTriggered 0 i s
  | .sha1Chain t, s => chainTriggered 1 t s
  | .padAppend _, s => s.phase = phaseAbsorb
  | .dispatch, s => s.eng ≠ engRun
  | .md5Load, s => s.alg = 0 && s.eng ≠ engRun
  | .sha1Load, s => s.alg = 1 && s.eng ≠ engRun
  | .padFinishOne, s => s.phase = phaseAbsorb && s.fill.toNat ≤ 55
  | .padFinishTwo, s => s.phase = phaseAbsorb && 56 ≤ s.fill.toNat
  | .padLenblock, s => s.eng = engChain && s.fseq
  | _, _ => false

/-- What a triggered operation leaves (`exec_triggered_cases`). -/
def State.afterOp : Instr → State → State
  | .md5StepF _, s => s.md5Step md5F
  | .md5StepG _, s => s.md5Step md5G
  | .md5StepH _, s => s.md5Step md5H
  | .md5StepI _, s => s.md5Step md5I
  | .sha1StepCh _, s => s.sha1Step sha1Ch sha1K0
  | .sha1StepPar1 _, s => s.sha1Step sha1Parity sha1K1
  | .sha1StepMaj _, s => s.sha1Step sha1Maj sha1K2
  | .sha1StepPar2 _, s => s.sha1Step sha1Parity sha1K3
  | .sha1Sched _, s => s.sha1Sched
  | .md5Chain _, s => s.chainMd5.completed
  | .sha1Chain _, s => s.chainSha1.completed
  | .padAppend b, s => s.afterByte b
  | .dispatch, s => s.dispatchBlock
  | .md5Load, s => s.loadMd5
  | .sha1Load, s => s.loadSha1
  | .padFinishOne, s => s.sendBlock s.finishOneBuf false 0
  | .padFinishTwo, s => s.sendBlock s.finishTwoBuf true 0
  | .padLenblock, s => s.sendBlock s.lengthBuf false s.fill
  | _, s => s

/-- The act of a triggered operation: only PAD_APPEND and PAD_FINISH_TWO can store past BUF. -/
def triggeredAct : Instr → State → Except Fault State
  | .padAppend b, s => s.appendByte b
  | .padFinishTwo, s => s.finishTwoBlocks
  | i, s => .ok (s.afterOp i)

/-- PAD_LENBLOCK leaves FILL as it is. -/
theorem State.sendLengthBlock_sends (s : State) :
    s.sendLengthBlock = .ok (s.sendBlock s.lengthBuf false s.fill) := by
  rw [State.sendLengthBlock_eq, State.sendBlock, State.dispatchBlock_eq]

/-- PAD_FINISH_ONE is triggered only with FILL where its act is total. -/
theorem exec_padFinishOne_act (s : State) :
    exec .padFinishOne s = whenTriggered (triggerOf .padFinishOne) (triggeredAct .padFinishOne) s := by
  rw [exec_padFinishOne, whenTriggered, whenTriggered]
  refine congrArg (State.checked s) (funext fun u => ?_)
  by_cases hf : u.fill.toNat ≤ 55
  · rw [State.finishOneBlock_eq hf]
    rfl
  · simp [triggerOf, hf]

theorem exec_triggered {i : Instr} (hi : isTriggeredOp i = true) (s : State) :
    exec i s = whenTriggered (triggerOf i) (triggeredAct i) s := by
  cases i with
  | md5StepF _ | md5StepG _ | md5StepH _ | md5StepI _ | sha1StepCh _ | sha1StepPar1 _ | sha1StepMaj _
  | sha1StepPar2 _ | sha1Sched _ | dispatch | md5Load | sha1Load | padAppend _ | padFinishTwo => rfl
  | md5Chain _ => simp only [exec_md5Chain, State.completeBlock_eq]; rfl
  | sha1Chain _ => simp only [exec_sha1Chain, State.completeBlock_eq]; rfl
  | padFinishOne => exact exec_padFinishOne_act s
  | padLenblock => simp only [exec_padLenblock, State.sendLengthBlock_sends]; rfl
  | _ => cases hi

/-! ## Every instruction -/

/-- Everything an instruction can leave: a write performed or held, a read answered, a triggered operation done. -/
inductive ExecNext (i : Instr) (s : State) : State → Prop
  | performed (hi : isWriteOp i = true) (he : s.eng = engIdle) :
      ExecNext i s (({ s with resp := none } : State).afterWrite i)
  | held (hi : isWriteOp i = true) (he : s.eng ≠ engIdle) (tw : Tw) : ExecNext i s (s.hold tw)
  | answered (hi : isReadOp i = true) : ExecNext i s { s with resp := some (readValue i s) }
  | triggered (hi : isTriggeredOp i = true) : ExecNext i s (s.afterOp i)

section
variable {i : Instr} {s t : State}

theorem triggeredAct_cases (h : triggeredAct i s = .ok t) : t = s.afterOp i := by
  cases i with
  | padAppend b =>
    have hf : s.fill.toNat ≤ 63 := by
      obtain ⟨hf, -⟩ | ⟨hf, -⟩ := State.appendByte_cases h <;> bv_omega
    rw [triggeredAct, State.appendByte_ok b hf] at h
    cases h
    rfl
  | padFinishTwo =>
    obtain ⟨-, rfl⟩ := State.finishTwoBlocks_cases h
    rfl
  | _ => cases h; rfl

theorem exec_cases (h : exec i s = .next t) : ExecNext i s t := by
  by_cases hw : isWriteOp i = true
  · obtain ⟨tw, henc, -⟩ := isWriteOp_iff_encode.mp hw
    rw [exec_write henc hw] at h
    obtain ⟨hb, ⟨he, hact⟩ | ⟨he, rfl⟩⟩ := hostWrite_cases h
    · rw [writeAct_eq (s := { s with resp := none }) hb] at hact
      split_ifs at hact
      cases hact
      exact .performed hw he
    · exact .held hw he tw
  · by_cases hr : isReadOp i = true
    · rw [exec_readOp hr] at h
      obtain ⟨-, rfl⟩ := hostRead_cases h
      exact .answered hr
    · have ht : isTriggeredOp i = true := by simp [isTriggeredOp, hw, hr]
      rw [exec_triggered ht] at h
      obtain ⟨-, -, hact⟩ := whenTriggered_cases h
      obtain rfl := triggeredAct_cases hact
      exact .triggered ht

/-- Whatever the instruction, its meaning begins with R61's test. -/
theorem exec_broken {f : Fault} (hf : s.broken = some f) (i : Instr) : exec i s = .fault f := by
  by_cases hw : isWriteOp i = true
  · obtain ⟨tw, henc, -⟩ := isWriteOp_iff_encode.mp hw
    rw [exec_write henc hw, hostWrite, State.checked_broken hf]
  · by_cases hr : isReadOp i = true
    · rw [exec_readOp hr, hostRead, State.checked_broken hf]
    · have ht : isTriggeredOp i = true := by simp [isTriggeredOp, hw, hr]
      rw [exec_triggered ht, whenTriggered, State.checked_broken hf]

end

/-! ## What the shared operations leave unchanged -/

section
variable (s : State)

/-- PAD_APPEND changes BUF, FILL and L, and what dispatch() does (R70). -/
theorem State.afterByte_frame (b : Byte) :
    s.afterByte b =
      { s with
        buf := (s.afterByte b).buf, fill := (s.afterByte b).fill, len := s.len + 1, mw := (s.afterByte b).mw
        wk := (s.afterByte b).wk, stepNo := (s.afterByte b).stepNo, eng := (s.afterByte b).eng } := by
  unfold State.afterByte
  split
  · rw [State.dispatchBlock_eq]
    rfl
  · rfl

@[simp] theorem State.afterByte_hs (b : Byte) : (s.afterByte b).hs = s.hs := by rw [State.afterByte_frame]
@[simp] theorem State.afterByte_alg (b : Byte) : (s.afterByte b).alg = s.alg := by rw [State.afterByte_frame]
@[simp] theorem State.afterByte_err (b : Byte) : (s.afterByte b).err = s.err := by rw [State.afterByte_frame]
@[simp] theorem State.afterByte_errcode (b : Byte) : (s.afterByte b).errcode = s.errcode := by
  rw [State.afterByte_frame]
@[simp] theorem State.afterByte_hostq (b : Byte) : (s.afterByte b).hostq = s.hostq := by rw [State.afterByte_frame]
@[simp] theorem State.afterByte_sched (b : Byte) : (s.afterByte b).sched = s.sched := by rw [State.afterByte_frame]
@[simp] theorem State.afterByte_resp (b : Byte) : (s.afterByte b).resp = s.resp := by rw [State.afterByte_frame]

/-- A field that PAD_APPEND keeps, a data write keeps. -/
theorem State.afterBytes_keeps {α : Type} (field : State → α) (hfield : ∀ t b, field (State.afterByte b t) = field t)
    (bytes : List Byte) : field (s.afterBytes bytes) = field s := by
  induction bytes generalizing s with
  | nil => rfl
  | cons b bs ih => exact (ih (s.afterByte b)).trans (hfield s b)

/-- FINISH in a session changes BUF, MW, WK, STEP, ENG, FSEQ, FILL and PHASE only (R123). -/
theorem State.closed_frame :
    s.closed =
      { s with
        buf := s.closed.buf, mw := s.closed.mw, wk := s.closed.wk, stepNo := 0, eng := engRun
        fseq := s.closed.fseq, fill := 0, phase := phaseDone } := by
  unfold State.closed
  split
  · rw [State.sendBlock_frame]
  · rw [State.sendBlock_frame]

@[simp] theorem State.closed_hs : s.closed.hs = s.hs := by rw [State.closed_frame]
@[simp] theorem State.closed_alg : s.closed.alg = s.alg := by rw [State.closed_frame]
@[simp] theorem State.closed_len : s.closed.len = s.len := by rw [State.closed_frame]
@[simp] theorem State.closed_phase : s.closed.phase = phaseDone := by rw [State.closed_frame]

/-- The completion rule changes BUF, MW, WK, STEP, ENG and FSEQ only (R118). -/
theorem State.completed_frame :
    s.completed =
      { s with
        buf := s.completed.buf, mw := s.completed.mw, wk := s.completed.wk, stepNo := s.completed.stepNo
        eng := s.completed.eng, fseq := s.completed.fseq } := by
  unfold State.completed
  split
  · rw [State.sendBlock_frame]
  · rfl

/-- What only an open session accepts keeps HS if its act does. -/
theorem State.ifOpen_hs {s t : State} (h : t.hs = s.hs) : (t.ifOpen s).hs = s.hs := by
  unfold State.ifOpen
  split
  · exact h
  · rfl

/-- NO_SESSION does not replace an earlier error (R139). -/
theorem State.ifOpen_error {s t : State} (he : s.err = true) (h : t.err = s.err ∧ t.errcode = s.errcode) :
    (t.ifOpen s).err = true ∧ (t.ifOpen s).errcode = s.errcode := by
  unfold State.ifOpen
  split
  · exact ⟨h.1.trans he, h.2⟩
  · exact ⟨rfl, if_pos he⟩

end

/-! ## What an instruction leaves unchanged -/

section
variable {i : Instr} {s t : State}

theorem State.afterWrite_hs (hi : isInit i = false) : (s.afterWrite i).hs = s.hs := by
  have hbytes (bytes : List Byte) := State.ifOpen_hs (s.afterBytes_keeps State.hs State.afterByte_hs bytes)
  cases i with
  | initMd5 | initSha1 => cases hi
  | finish =>
    refine State.ifOpen_hs ?_
    rw [State.closed_frame]
  | dataB v => exact hbytes _
  | dataW v => exact hbytes _
  | _ => rfl

theorem State.afterWrite_error (hi : i ≠ .clearErr) (he : s.err = true) :
    (s.afterWrite i).err = true ∧ (s.afterWrite i).errcode = s.errcode := by
  have hbytes (bytes : List Byte) := State.ifOpen_error he
    ⟨s.afterBytes_keeps State.err State.afterByte_err bytes,
      s.afterBytes_keeps State.errcode State.afterByte_errcode bytes⟩
  cases i with
  | clearErr => exact absurd rfl hi
  | finish =>
    refine State.ifOpen_error he ?_
    rw [State.closed_frame]
    exact ⟨rfl, rfl⟩
  | dataB v => exact hbytes _
  | dataW v => exact hbytes _
  | cmdIllegal v | wrBad slot v => exact ⟨rfl, if_pos he⟩
  | _ => exact ⟨he, rfl⟩

theorem State.ifOpen_bus (h : t.hostq = s.hostq ∧ t.sched = s.sched ∧ t.resp = s.resp) :
    (t.ifOpen s).hostq = s.hostq ∧ (t.ifOpen s).sched = s.sched ∧ (t.ifOpen s).resp = s.resp := by
  unfold State.ifOpen
  split
  · exact h
  · exact ⟨rfl, rfl, rfl⟩

theorem State.afterBytes_bus (bytes : List Byte) :
    (s.afterBytes bytes).hostq = s.hostq ∧ (s.afterBytes bytes).sched = s.sched ∧
      (s.afterBytes bytes).resp = s.resp :=
  ⟨s.afterBytes_keeps State.hostq State.afterByte_hostq bytes, s.afterBytes_keeps State.sched State.afterByte_sched bytes,
    s.afterBytes_keeps State.resp State.afterByte_resp bytes⟩

/-- What a performed write does is not on the bus. -/
theorem State.afterWrite_bus :
    (s.afterWrite i).hostq = s.hostq ∧ (s.afterWrite i).sched = s.sched ∧ (s.afterWrite i).resp = s.resp := by
  cases i with
  | finish =>
    refine State.ifOpen_bus ?_
    rw [State.closed_frame]
    exact ⟨rfl, rfl, rfl⟩
  | dataB v => exact State.ifOpen_bus (State.afterBytes_bus _)
  | dataW v => exact State.ifOpen_bus (State.afterBytes_bus _)
  | _ => exact ⟨rfl, rfl, rfl⟩

theorem State.afterOp_hs (hmd5 : ∀ j, i ≠ .md5Chain j) (hsha1 : ∀ j, i ≠ .sha1Chain j) : (s.afterOp i).hs = s.hs := by
  cases i with
  | md5Chain j => exact absurd rfl (hmd5 j)
  | sha1Chain j => exact absurd rfl (hsha1 j)
  | padAppend b => exact s.afterByte_hs b
  | dispatch => exact s.dispatchBlock_hs
  | padFinishOne | padFinishTwo | padLenblock => exact State.dispatchBlock_hs _
  | _ => rfl

theorem State.afterOp_error : (s.afterOp i).err = s.err ∧ (s.afterOp i).errcode = s.errcode := by
  cases i with
  | md5Chain _ | sha1Chain _ =>
    rw [State.afterOp, State.completed_frame]
    exact ⟨rfl, rfl⟩
  | padAppend b => exact ⟨s.afterByte_err b, s.afterByte_errcode b⟩
  | dispatch => exact ⟨s.dispatchBlock_err, s.dispatchBlock_errcode⟩
  | padFinishOne | padFinishTwo | padLenblock => exact ⟨State.dispatchBlock_err _, State.dispatchBlock_errcode _⟩
  | _ => exact ⟨rfl, rfl⟩

theorem State.afterOp_engine (hi : isEngineOp i = true) :
    (s.afterOp i).fill = s.fill ∧ (s.afterOp i).phase = s.phase ∧ (s.afterOp i).alg = s.alg ∧
      (s.afterOp i).len = s.len ∧ (s.afterOp i).err = s.err ∧ (s.afterOp i).errcode = s.errcode := by
  cases i with
  | md5StepF _ | md5StepG _ | md5StepH _ | md5StepI _ | sha1StepCh _ | sha1StepPar1 _ | sha1StepMaj _
  | sha1StepPar2 _ => exact ⟨rfl, rfl, rfl, rfl, rfl, rfl⟩
  | md5Chain _ | sha1Chain _ =>
    rw [State.afterOp, State.completed_frame]
    exact ⟨rfl, rfl, rfl, rfl, rfl, rfl⟩
  | _ => cases hi

/-- Settles O21: of the writes only the INITs write HS (`State.afterWrite_hs`), of the other operations only the chainings
(`State.afterOp_hs`). -/
theorem stateBankWrittenOnlyByInitAndChain : Obligations.StateBankWrittenOnlyByInitAndChain := by
  intro i s t h hne
  by_contra hother
  rw [not_or, not_or, Bool.not_eq_true, not_exists, not_exists] at hother
  obtain ⟨hinit, hmd5, hsha1⟩ := hother
  cases exec_cases h with
  | performed => exact hne (State.afterWrite_hs hinit)
  | held | answered => exact hne rfl
  | triggered => exact hne (State.afterOp_hs hmd5 hsha1)

theorem isWriteOp_eq_false (hi : isEngineOp i = true ∨ isReadOp i = true) : isWriteOp i = false := by
  cases i with
  | nop | initMd5 | initSha1 | finish | clearErr | cmdIllegal _ | dataB _ | dataW _ | wrBad _ _ =>
    obtain h | h := hi <;> cases h
  | _ => rfl

/-- Settles O22: an engine operation is triggered, and `State.afterOp_engine` says what it keeps; a read keeps all but the
response. -/
theorem engineAndReadsKeepTheSession : Obligations.EngineAndReadsKeepTheSession := by
  intro i s t hi h
  have hnotWrite := isWriteOp_eq_false hi
  cases exec_cases h with
  | performed hw => simp [hnotWrite] at hw
  | held hw => simp [hnotWrite] at hw
  | answered => exact ⟨rfl, rfl, rfl, rfl, rfl, rfl⟩
  | triggered ht =>
    have hnotRead : isReadOp i ≠ true := by
      rw [isTriggeredOp, Bool.and_eq_true] at ht
      simpa using ht.2
    exact State.afterOp_engine (hi.resolve_right hnotRead)

/-- Settles O25: a write raises at most an error that is not the first (`State.afterWrite_error`), and no other operation
writes the error record (`State.afterOp_error`). -/
theorem firstErrorIsKept : Obligations.FirstErrorIsKept := by
  intro i s t he hi h
  cases exec_cases h with
  | performed => exact State.afterWrite_error (s := { s with resp := none }) hi he
  | held | answered => exact ⟨he, rfl⟩
  | triggered =>
    obtain ⟨herr, hcode⟩ := State.afterOp_error (i := i) (s := s)
    exact ⟨herr.trans he, hcode⟩

end

/-! ## States that fault, operations that are not triggered (R61, R117) -/

/-- Settles O19: the disjunction is that of `State.broken`, which both `step` and every meaning test first. -/
theorem brokenStatesFault : Obligations.BrokenStatesFault := by
  intro s hs
  cases hf : s.broken with
  | none =>
    obtain ⟨heng, hphase, hstep, hfseq, herr⟩ := (State.broken_eq_none_iff s).mp hf
    obtain h | h | ⟨h, hlt⟩ | ⟨h, he⟩ | h := hs
    · exact absurd h heng
    · exact absurd h hphase
    · exact absurd (hstep h) (by omega)
    · exact absurd he (hfseq h)
    · omega
  | some f => exact ⟨f, State.checked_broken hf, exec_broken hf⟩

/-- A chaining operation is triggered only where ALG selects it. -/
theorem decode_of_chainTriggered {s : State} {alg : BitVec 1} {i : BitVec 7} (h : chainTriggered alg i s = true) :
    decode (.ecw s.ecw) = .ok (if alg = 0 then .md5Chain i else .sha1Chain i) := by
  obtain ⟨he, rfl, rfl⟩ := (chainTriggered_iff ..).mp h
  exact decode_chain he

section
variable {s : State} (hb : s.broken = none)
include hb

theorem exec_not_triggered {i : Instr} (hi : isTriggeredOp i = true) (hc : triggerOf i s = false) :
    exec i s = .fault .notTriggered := by
  rw [exec_triggered hi, whenTriggered, State.checked_ok hb, if_neg (by simp [hc])]

/-- A step operation is triggered only where FSEL selects it. -/
theorem decode_of_stepTriggered {fsel : BitVec 3} {i : BitVec 7} (h : stepTriggered fsel i s = true) :
    decode (.ecw s.ecw) = .ok (stepOfFsel fsel i) := by
  obtain ⟨he, rfl, rfl⟩ := (stepTriggered_iff ..).mp h
  exact decode_run hb he

/-- An engine operation is triggered only where the control word decodes to it (R117). -/
theorem decode_of_triggerOf {i : Instr} (hi : isEngineOp i = true) (hc : triggerOf i s = true) :
    decode (.ecw s.ecw) = .ok i := by
  cases i with
  | md5StepF _ | md5StepG _ | md5StepH _ | md5StepI _ | sha1StepCh _ | sha1StepPar1 _ | sha1StepMaj _
  | sha1StepPar2 _ => exact decode_of_stepTriggered hb hc
  | md5Chain _ | sha1Chain _ => exact decode_of_chainTriggered hc
  | _ => cases hi

end

theorem isTriggeredOp_of_engineOp {i : Instr} (hi : isEngineOp i = true) : isTriggeredOp i = true := by
  cases i with
  | md5StepF _ | md5StepG _ | md5StepH _ | md5StepI _ | sha1StepCh _ | sha1StepPar1 _ | sha1StepMaj _
  | sha1StepPar2 _ | md5Chain _ | sha1Chain _ => rfl
  | _ => cases hi

/-- Settles O20: each clause is the negation of the trigger. -/
theorem operationsFaultWhereNotTriggered : Obligations.OperationsFaultWhereNotTriggered := by
  intro s hb
  refine ⟨fun i hi hdecode => ?engine, fun i hc => ?sched, fun b hc => ?append, fun hc => ?dispatch, fun hc => ?md5Load,
    fun hc => ?sha1Load, fun hc => ?finishOne, fun hc => ?finishTwo, fun hc => ?lenblock⟩
  case engine =>
    refine exec_not_triggered hb (isTriggeredOp_of_engineOp hi) ?_
    rw [← Bool.not_eq_true]
    exact fun hc => hdecode (decode_of_triggerOf hb hi hc)
  all_goals
    refine exec_not_triggered hb rfl ?_
    simp only [triggerOf]
    grind

/-! ## Writes performed, and writes that wait (R116, R120, R135) -/

/-- Settles O11: every write is `hostWrite` with its own word. -/
theorem busyWriteIsHeld : Obligations.BusyWriteIsHeld := by
  intro i tw s hb he henc hr
  rw [exec_write henc (isWriteOp_iff_encode.mpr ⟨tw, henc, hr⟩), hostWrite_busy tw hb he]
  rfl

/-- Settles O33: the response is emptied before the write's act, which leaves the bus alone (`State.afterWrite_bus`). -/
theorem performedWriteReturnsNothing : Obligations.PerformedWriteReturnsNothing := by
  intro i tw s t henc hr he h
  have hw : isWriteOp i = true := isWriteOp_iff_encode.mpr ⟨tw, henc, hr⟩
  cases exec_cases h with
  | performed =>
    obtain ⟨-, -, hresp⟩ := State.afterWrite_bus (i := i) (s := { s with resp := none })
    exact hresp
  | held _ hbusy => exact absurd he hbusy
  | answered hread => rw [isWriteOp_eq_false (.inr hread)] at hw; cases hw
  | triggered ht => simp [isTriggeredOp, hw] at ht

/-- Settles O27: an idle engine by `exec_nop`, the wait by O11 (`busyWriteIsHeld`). -/
theorem nopHasNoEffect : Obligations.NopHasNoEffect := by
  refine ⟨rfl, fun s hb => ⟨fun he => ⟨none, ?idle⟩, fun he => ?busy⟩⟩
  case idle => rw [exec_nop, hostWrite_total _ _ hb he]
  case busy => exact busyWriteIsHeld .nop _ s hb he rfl (isRead_mkTw ..)

/-! ## FINISH, bytes past BUF, dispatch() (R71, R123, R36) -/

theorem State.sendBlock_setResp (s : State) (m : Memory) (fseq : Bool) (fill : BitVec 7) (r : Option Word) :
    State.sendBlock m fseq fill { s with resp := r } = { s.sendBlock m fseq fill with resp := r } :=
  congrArg (fun t : State => { t with fseq := fseq, fill := fill })
    (({ s with buf := m } : State).dispatchBlock_setResp r)

/-- FINISH performed in a session, FILL inside BUF. -/
theorem exec_finish_open {s : State} (hb : s.broken = none) (he : s.eng = engIdle) (hp : s.phase = phaseAbsorb)
    (hf : s.fill.toNat ≤ 63) : exec .finish s = .next (State.closed { s with resp := none }) := by
  rw [exec_finish, hostWrite_idle _ hb he, inSession_open (s := { s with resp := none }) hp,
    State.closeSession_eq (s := { s with resp := none }) hf, ofExcept]

/-- Settles O29: FINISH sends what the micro-operation of its FILL sends. -/
theorem finishClosesTheSession : Obligations.FinishClosesTheSession := by
  intro s hb he hp
  refine ⟨fun h55 => ⟨_, none, exec_padFinishOne_eq hb hp h55, ?one⟩,
    fun hlo hhi => ⟨_, none, exec_padFinishTwo_eq hb hp hlo hhi, ?two⟩⟩
  case one =>
    rw [exec_finish_open hb he hp (by omega), State.closed, if_pos h55, State.sendBlock_setResp]
    rfl
  case two =>
    have h55 : ¬ s.fill.toNat ≤ 55 := by omega
    rw [exec_finish_open hb he hp hhi, State.closed, if_neg h55, State.sendBlock_setResp]
    rfl

/-- Settles O37: each of the five comes to a write at an offset that BUF does not have. -/
theorem bytesPastTheBufferFault : Obligations.BytesPastTheBufferFault := by
  intro s hb hp hf
  have hwrite {i : Instr} {tw : Tw} (he : s.eng = engIdle) (hstores : storesBytes i = true)
      (henc : encode i = some (.tw tw)) (hw : isWriteOp i = true) : exec i s = .fault .bufferOffset := by
    rw [exec_write henc hw, hostWrite_idle tw hb he, writeAct_eq (s := { s with resp := none }) hb,
      if_pos (by simp [State.pastBuffer, hstores, hp, hf]), ofExcept]
  refine ⟨fun b => ?append, ?finishTwo, fun he v => ⟨hwrite he rfl rfl rfl, hwrite he rfl rfl rfl, hwrite he rfl rfl rfl⟩⟩
  case append => rw [exec_padAppend, whenTriggered_ok hb (by simp [hp]), State.appendByte_past b hf, ofExcept]
  case finishTwo =>
    have h56 : 56 ≤ s.fill.toNat := by omega
    rw [exec_padFinishTwo, whenTriggered_ok hb (by simp [hp, h56]), State.finishTwoBlocks_past hf, ofExcept]

/-- Settles O38: what is handed over and what is kept are the laws' lemmas about `State.dispatchBlock`. -/
theorem dispatchHandsOverTheBlock : Obligations.DispatchHandsOverTheBlock := by
  intro s hb he
  refine ⟨s.dispatchBlock, ?_, s.handedOver_dispatchBlock, s.dispatchBlock_eq⟩
  rw [exec_dispatch, whenTriggered_ok hb (by simpa using he), ofExcept]

/-! ## SHA1_SCHED by itself (R101; log 11) -/

/-- Settles O54: the operation is R101's window, written from step 16 on. -/
theorem sha1SchedUpdatesTheWindow : Obligations.Sha1SchedUpdatesTheWindow := by
  rintro s t hb he ha rfl
  have hexec : exec (.sha1Sched s.stepNo) s = .next { s with mw := sha1Window s.mw s.stepNo.toNat } := by
    rw [exec_sha1Sched, whenTriggered_ok hb (by simp [he, ha]), ofExcept]
    rfl
  refine ⟨fun hle => ?block, fun hge => ?schedule⟩
  case block => rw [hexec, sha1Window_of_le hle]
  case schedule => rw [hexec, sha1Window_of_ge hge, sha1Word_of_ge hge]

/-- Settles O57: both are facts about the window before step t. -/
theorem windowHoldsTheSchedule : Obligations.WindowHoldsTheSchedule := by
  intro x t ht
  exact ⟨fun h16 j hlo hhi => windowAfter_getElem x (by omega) (by omega) (by omega), sha1Word_windowAfter x (by omega)⟩

/-! ## STATUS (R129) -/

section
variable (s : State)

/-- A bit of STATUS as a truth value. -/
theorem ofBool_eq_one (b : Bool) : BitVec.ofBool b = 1 ↔ b = true := by
  revert b
  decide

/-- The fields of STATUS, each found by dropping the fields below it (R129). -/
theorem State.statusWord_flags :
    s.statusWord.extractLsb' 1 1 = BitVec.ofBool s.done ∧ s.statusWord.extractLsb' 2 1 = BitVec.ofBool s.err ∧
      s.statusWord.extractLsb' 3 1 = 0#1 := by
  unfold State.statusWord
  refine ⟨?done, ?err, ?reserved⟩
  case done =>
    iterate 1 refine (BitVec.extractLsb'_append_eq_of_le (by decide)).trans ?_
    exact BitVec.extractLsb'_append_eq_right
  case err =>
    iterate 2 refine (BitVec.extractLsb'_append_eq_of_le (by decide)).trans ?_
    exact BitVec.extractLsb'_append_eq_right
  case reserved =>
    iterate 3 refine (BitVec.extractLsb'_append_eq_of_le (by decide)).trans ?_
    exact BitVec.extractLsb'_append_eq_right

theorem State.statusWord_fields :
    s.statusWord.extractLsb' 4 4 = s.errcode ∧ s.statusWord.extractLsb' 8 1 = s.alg ∧
      s.statusWord.extractLsb' 9 3 = 0#3 ∧ s.statusWord.extractLsb' 12 2 = s.phase ∧
      s.statusWord.extractLsb' 14 2 = 0#2 ∧ s.statusWord.extractLsb' 16 7 = s.fill ∧
      s.statusWord.extractLsb' 23 9 = 0#9 := by
  unfold State.statusWord
  refine ⟨?errcode, ?alg, ?reserved9, ?phase, ?reserved14, ?fill, ?reserved23⟩
  case errcode =>
    iterate 4 refine (BitVec.extractLsb'_append_eq_of_le (by decide)).trans ?_
    exact BitVec.extractLsb'_append_eq_right
  case alg =>
    iterate 5 refine (BitVec.extractLsb'_append_eq_of_le (by decide)).trans ?_
    exact BitVec.extractLsb'_append_eq_right
  case reserved9 =>
    iterate 6 refine (BitVec.extractLsb'_append_eq_of_le (by decide)).trans ?_
    exact BitVec.extractLsb'_append_eq_right
  case phase =>
    iterate 7 refine (BitVec.extractLsb'_append_eq_of_le (by decide)).trans ?_
    exact BitVec.extractLsb'_append_eq_right
  case reserved14 =>
    iterate 8 refine (BitVec.extractLsb'_append_eq_of_le (by decide)).trans ?_
    exact BitVec.extractLsb'_append_eq_right
  case fill =>
    iterate 9 refine (BitVec.extractLsb'_append_eq_of_le (by decide)).trans ?_
    exact BitVec.extractLsb'_append_eq_right
  case reserved23 =>
    iterate 9 refine (BitVec.extractLsb'_append_eq_of_le (by decide)).trans ?_
    exact BitVec.extractLsb'_append_eq_left

end

/-- Settles O47: each field by `State.statusWord_flags` and `State.statusWord_fields`, BUSY by `State.statusWord_busy`. -/
theorem statusReadGivesTheFields : Obligations.StatusReadGivesTheFields := by
  intro s v hb
  obtain ⟨hdone, herr, h3⟩ := s.statusWord_flags
  refine ⟨s.statusWord, hostRead_ok State.statusWord hb, s.statusWord_busy, ?done, ?err, h3, s.statusWord_fields⟩
  case done => rw [hdone, ofBool_eq_one, State.done, Bool.and_eq_true, decide_eq_true_iff, decide_eq_true_iff]
  case err => rw [herr, ofBool_eq_one]

end Sys2Proof.Machine
end

section
/-! PROOFS. One step of the machine (spec/43_host_interface.md R116, R117, R119, 70_reset_and_hazards.md R156..R163): which
transition a step is, as one inversion lemma (`step_moves`), and what no transition of a kind changes. -/

namespace Sys2Proof.Machine

/-! ## What a step runs (R116, R117, R119) -/

section
variable {s : State}

theorem State.readPending_cons {tw : Tw} {rest : List Tw} (hq : s.hostq = tw :: rest) : s.readPending = isRead tw := by
  rw [State.readPending, hq]

/-- Settles O7: the host's turn is that of the idle engine or of the read, and the transaction is decoded. -/
theorem stepRunsTheHostsTransaction : Obligations.StepRunsTheHostsTransaction := by
  intro s tw rest i hb hn hq hdecode hturn
  have hhost : s.nextTurn = .host := by
    obtain he | ⟨hr, hhead⟩ := hturn
    · exact nextTurn_idle hn he
    · exact nextTurn_read ((State.readPending_cons hq).trans hr) hhead
  cases hdecode
  rw [step_host hb hhost, hostTransition_cons hq, State.takeTransaction, hq]
  rfl

theorem isEngineOp_stepOfFsel (fsel : BitVec 3) (i : BitVec 7) : isEngineOp (stepOfFsel fsel i) = true := by
  unfold stepOfFsel
  split_ifs <;> rfl

/-- The control word of a busy engine decodes to an engine operation (R117). -/
theorem Busy.decode_ecw (h : Busy s) : ∃ i, decode (.ecw s.ecw) = .ok i ∧ isEngineOp i = true := by
  obtain hidle | hrun | hchain := eng_cases h.unbroken
  · exact absurd hidle h.notIdle
  · exact ⟨_, decode_run h.unbroken hrun, isEngineOp_stepOfFsel _ _⟩
  · refine ⟨_, decode_chain hchain, ?_⟩
    split <;> rfl

theorem engineTransition_of_decode {i : Instr} (h : decode (.ecw s.ecw) = .ok i) :
    engineTransition s = exec i s.takeTurn := by
  unfold engineTransition
  rw [h]

/-- Settles O8: the engine's turn, and the operation of its control word (`Busy.decode_ecw`). -/
theorem stepRunsTheEnginesOperation : Obligations.StepRunsTheEnginesOperation := by
  intro s hb hn he hr
  obtain ⟨i, hdecode, hi⟩ := Busy.decode_ecw ⟨hb, he⟩
  refine ⟨i, hdecode, hi, ?_⟩
  rw [step_engine hb (nextTurn_busy hn he hr), engineTransition_of_decode hdecode]
  rfl

/-- Settles O9: the turn is the host's (`nextTurn_idle`), and its bus is empty. -/
theorem idleMachineWaits : Obligations.IdleMachineWaits := by
  intro s hb hn he hq
  rw [step_host hb (nextTurn_idle hn he), hostTransition_nil hq]
  rfl

/-- Settles O10: a write gives its turn to the engine, whose transition leaves the bus alone
(`State.engineNext_keeps_bus`). -/
theorem writeWaitsWhileBusy : Obligations.WriteWaitsWhileBusy := by
  intro s t tw rest hn he hq hr h
  obtain ⟨hb, -⟩ := step_cases h
  have hpending : s.readPending = false := (State.readPending_cons hq).trans hr
  have hturn := nextTurn_busy hn he fun _ => hpending
  obtain ⟨hkeepq, -, hkeepr⟩ := s.engineNext_keeps_bus
  have ht : t = s.engineNext.takeTurn := by
    rw [step_engineNext ⟨hb, he⟩ hturn] at h
    cases h
    rfl
  exact ⟨by rw [ht, State.takeTurn_hostq, hkeepq, hq], by rw [ht, State.takeTurn_resp, hkeepr],
    stepRunsTheEnginesOperation s hb hn he fun _ => hpending⟩

/-- Settles O14: the two clauses are the two branches of `State.busAfterReset`. -/
theorem resetAndTheWaitingWrite : Obligations.ResetAndTheWaitingWrite := by
  intro s keeps rest hb hs
  have hturn : s.nextTurn = .reset keeps := nextTurn_reset (by rw [hs, List.head?_cons])
  refine ⟨s.takeReset keeps, step_reset hb hturn, by rw [State.takeReset_sched, hs, List.tail_cons], fun hkept => ?kept,
    fun hk he hr => ?dropped⟩
  case kept => rw [State.takeReset_hostq, State.busAfterReset, if_pos (by simpa [or_assoc] using hkept)]
  case dropped => rw [State.takeReset_hostq, State.busAfterReset, if_neg (by simpa [hk, hr] using he)]

/-! ## Every transition -/

/-- Everything a step can be, with the state it leaves. -/
inductive Moves (s : State) : State → Prop
  | reset (keeps : Bool) (hturn : s.sched.head? = some (.reset keeps)) : Moves s (s.takeReset keeps)
  | waits (he : s.eng = engIdle) (hq : s.hostq = []) : Moves s s.takeTurn
  | reads {tw : Tw} {rest : List Tw} (hq : s.hostq = tw :: rest) (hr : isRead tw = true) :
      Moves s (s.onBus rest s.sched.tail (some (readValue (decodeTw tw) s)))
  | writes {tw : Tw} {rest : List Tw} (hq : s.hostq = tw :: rest) (hr : isRead tw = false) (he : s.eng = engIdle) :
      Moves s ((s.onBus rest s.sched.tail none).afterWrite (decodeTw tw))
  | engine (he : Busy s) : Moves s s.engineNext.takeTurn

theorem isWriteOp_decodeTw {tw : Tw} (hr : isRead tw = false) : isWriteOp (decodeTw tw) = true := by
  obtain ⟨-, henc⟩ := encode_decodeTw tw
  exact isWriteOp_iff_encode.mpr ⟨tw, henc, hr⟩

theorem isReadOp_decodeTw {tw : Tw} (hr : isRead tw = true) : isReadOp (decodeTw tw) = true := by
  have hwe : twWe tw = 0 := of_decide_eq_true hr
  rw [decodeTw_read hwe, decodeRead]
  split_ifs <;> rfl

/-- A read does not look at the bus. -/
theorem readValue_takeTransaction (i : Instr) : readValue i s.takeTransaction = readValue i s := by
  cases i <;> rfl

theorem State.takeTransaction_eq_onBus {tw : Tw} {rest : List Tw} (hq : s.hostq = tw :: rest) :
    s.takeTransaction = s.onBus rest s.sched.tail s.resp := by
  rw [State.takeTransaction, hq]
  rfl

theorem hostTransition_read {tw : Tw} {rest : List Tw} (hb : s.broken = none) (hq : s.hostq = tw :: rest)
    (hr : isRead tw = true) :
    hostTransition s = .next (s.onBus rest s.sched.tail (some (readValue (decodeTw tw) s))) := by
  rw [hostTransition_cons hq, exec_readOp (isReadOp_decodeTw hr), hostRead_ok (s := s.takeTransaction) _ hb,
    readValue_takeTransaction, State.takeTransaction_eq_onBus hq]
  rfl

theorem hostTransition_write {tw : Tw} {rest : List Tw} (hb : s.broken = none) (he : s.eng = engIdle)
    (hq : s.hostq = tw :: rest) (hr : isRead tw = false) :
    hostTransition s =
      if s.pastBuffer (decodeTw tw) = true then .fault .bufferOffset
      else .next ((s.onBus rest s.sched.tail none).afterWrite (decodeTw tw)) := by
  obtain ⟨-, henc⟩ := encode_decodeTw tw
  have hact := writeAct_eq (s := s.onBus rest s.sched.tail none) hb (decodeTw tw)
  rw [hostTransition_cons hq, exec_write henc (isWriteOp_decodeTw hr), hostWrite_idle (s := s.takeTransaction) tw hb he,
    State.takeTransaction_eq_onBus hq]
  refine (congrArg ofExcept hact).trans ?_
  rw [apply_ite ofExcept]
  rfl

/-- Everything a step can do, as `Moves` lists it. -/
theorem step_moves {t : State} (h : step s = .next t) : s.broken = none ∧ Moves s t := by
  obtain ⟨hb, ⟨keeps, hturn, rfl⟩ | ⟨hturn, hhost⟩ | ⟨hturn, he, heng⟩⟩ := step_cases h
  · exact ⟨hb, .reset keeps hturn⟩
  · refine ⟨hb, ?_⟩
    by_cases he : s.eng = engIdle
    · cases hq : s.hostq with
      | nil =>
        rw [hostTransition_nil hq] at hhost
        cases hhost
        exact .waits he hq
      | cons tw rest =>
        cases hr : isRead tw with
        | true =>
          rw [hostTransition_read hb hq hr] at hhost
          cases hhost
          exact .reads hq hr
        | false =>
          rw [hostTransition_write hb he hq hr] at hhost
          split_ifs at hhost
          cases hhost
          exact .writes hq hr he
    · obtain ⟨tw, rest, -, hq, hr, -⟩ := step_read_while_busy hb he hturn
      rw [hostTransition_read hb hq hr] at hhost
      cases hhost
      exact .reads hq hr
  · rw [step_engineNext ⟨hb, he⟩ hturn] at h
    cases h
    exact ⟨hb, .engine ⟨hb, he⟩⟩

/-! ## What no transition of a kind changes (R161, R163) -/

/-- Settles O23: only a write or the engine's own transition touches ENG, and neither comes here. -/
theorem idleUntilTheNextWrite : Obligations.IdleUntilTheNextWrite := by
  intro s t he hq h
  obtain ⟨-, hmove⟩ := step_moves h
  cases hmove with
  | reset => rfl
  | waits | reads => exact he
  | writes hq' hr =>
    obtain hnil | hread := hq
    · rw [hnil] at hq'
      cases hq'
    · rw [State.readPending_cons hq', hr] at hread
      cases hread
  | engine hbusy => exact absurd he hbusy.notIdle

theorem done_iff (s : State) : s.done = true ↔ s.phase = phaseDone ∧ s.eng = engIdle := by
  rw [State.done, Bool.and_eq_true, decide_eq_true_iff, decide_eq_true_iff]

/-- Outside an open session a write that is no INIT changes at most the error record (R142). -/
theorem State.afterWrite_outside {i : Instr} (hi : isInit i = false) (hp : s.phase ≠ phaseAbsorb) :
    s.afterWrite i = { s with err := (s.afterWrite i).err, errcode := (s.afterWrite i).errcode } := by
  cases i with
  | initMd5 | initSha1 => cases hi
  | finish | dataB _ | dataW _ =>
    rw [State.afterWrite, State.ifOpen, if_neg hp]
    rfl
  | _ => rfl

/-- Settles O24: with DONE = 1 the engine is idle and the session closed, so a step is a wait, a read or a write that
changes at most the error record. -/
theorem doneDigestIsStable : Obligations.DoneDigestIsStable := by
  intro s t hdone hn hinit h
  obtain ⟨hp, he⟩ := (done_iff s).mp hdone
  obtain ⟨-, hmove⟩ := step_moves h
  cases hmove with
  | reset keeps hturn => exact absurd hturn (hn keeps)
  | waits | reads => exact ⟨rfl, hdone⟩
  | @writes tw rest hq _ _ =>
    have hclosed : (s.onBus rest s.sched.tail none).phase ≠ phaseAbsorb := by
      rw [State.onBus, hp]
      decide
    rw [State.afterWrite_outside (hinit tw rest hq) hclosed]
    exact ⟨rfl, hdone⟩
  | engine hbusy => exact absurd he hbusy.notIdle

end
end Sys2Proof.Machine
end

section
/-! PROOFS. The invariant (spec/10_state.md R16..R27, 40_padding.md R69, 60_exceptions.md R140): it holds at reset, every
operation that a step can run keeps it, and from a state that has it every step completes and a busy engine becomes idle
after as many transitions as `State.engineLeft` counts. -/

namespace Sys2Proof.Machine

/-! ## Reset -/

/-- Settles O15: the fields are read off, STATUS is evaluated. -/
theorem resetStateValues : Obligations.ResetStateValues :=
  ⟨rfl, rfl, rfl, rfl, rfl, rfl, rfl, rfl, rfl, rfl, by decide⟩

/-- Settles O16: each clause is evaluated on `State.reset`. -/
theorem invHoldsAtReset : Obligations.InvHoldsAtReset := by
  constructor <;> decide

/-! ## What every operation of a step keeps -/

namespace Inv

variable {s t : State} (h : Inv s)
include h

/-- The first conditions of the invariant are those of R61, U5 and U6. -/
theorem unbroken : s.broken = none :=
  (State.broken_eq_none_iff s).mpr ⟨h.engLegal, h.phaseLegal, h.stepInRange, h.fseqBusy, h.errcodeLegal⟩

/-- The invariant does not look at the bus. -/
theorem onBus {q : List Tw} {c : List Turn} {r : Option Word} : Inv (s.onBus q c r) := { h with }

/-- An error recorded has one of the codes of R140. -/
theorem raiseHostError {code : BitVec 4} (hcode : code ≠ 0 ∧ code.toNat ≤ 3) : Inv (s.raiseHostError code) :=
  { h with
    errcodeLegal := by
      rw [State.raiseHostError_errcode]
      split
      · exact h.errcodeLegal
      · exact hcode.2
    errcodeZero := by
      rw [State.raiseHostError_errcode, State.raiseHostError_err]
      split
      · next he => simpa [he] using h.errcodeZero
      · simpa using hcode.1 }

theorem clearHostError : Inv s.clearHostError := { h with errcodeLegal := by simp, errcodeZero := by simp }

/-- INIT opens a session on the empty message, with the engine idle. -/
theorem openSession (he : s.eng = engIdle) {alg : BitVec 1} {initial : Vector Word 5} (hw : alg = 0 → initial[4] = 0) :
    Inv (s.openSession alg initial) :=
  { h with
    phaseLegal := by simp
    stepInRange := by simp [he]
    stepAtChain := by simp [he]
    fseqBusy := by simp
    fseqDone := by simp
    busyInSession := by simp
    fillInBlock := by simp
    fillIsLen := by simp
    fillOutside := by simp
    md5FifthWord := hw }

/-- The state a dispatch leaves: the engine starts a block, in a session whose FILL is in step with L or closed. -/
theorem of_dispatch (hbuf : t.buf.wf = true) (hrun : t.eng = engRun) (h0 : t.stepNo = 0) (hhs : t.alg = 0 → t.hs[4] = 0)
    (herr : t.err = s.err ∧ t.errcode = s.errcode)
    (hsession : (t.phase = phaseAbsorb ∧ t.fseq = false ∧ t.fill.toNat = t.len.toNat % 64) ∨
      (t.phase = phaseDone ∧ t.fill = 0)) : Inv t where
  bufCanonical := hbuf
  engLegal := by simp [hrun]
  phaseLegal := by obtain ⟨hp, -, -⟩ | ⟨hp, -⟩ := hsession <;> simp [hp]
  stepInRange := by
    intro _
    rw [h0, stepsOf]
    split <;> decide
  stepAtChain := by simp [hrun]
  fseqBusy := by simp [hrun]
  fseqDone := by obtain ⟨-, hq, -⟩ | ⟨hp, -⟩ := hsession <;> simp [*]
  busyInSession := by obtain ⟨hp, -, -⟩ | ⟨hp, -⟩ := hsession <;> simp [hp]
  fillInBlock := by
    obtain ⟨-, -, hf⟩ | ⟨-, hf⟩ := hsession
    · omega
    · simp [hf]
  fillIsLen := by
    obtain ⟨-, -, hf⟩ | ⟨hp, -⟩ := hsession
    · exact fun _ => hf
    · simp [hp]
  fillOutside := by
    obtain ⟨hp, -, -⟩ | ⟨-, hf⟩ := hsession
    · simp [hp]
    · exact fun _ => hf
  errcodeLegal := herr.2 ▸ h.errcodeLegal
  errcodeZero := by rw [herr.1, herr.2]; exact h.errcodeZero
  md5FifthWord := hhs

theorem fseq_eq_false (hp : s.phase = phaseAbsorb) : s.fseq = false := by
  cases hq : s.fseq with
  | false => rfl
  | true => simpa [hp] using h.fseqDone hq

/-- FILL and L advance together (R69). -/
theorem fill_succ (hp : s.phase = phaseAbsorb) : (s.fill.toNat + 1) % 64 = (s.len + 1).toNat % 64 := by
  have := h.fillIsLen hp
  bv_omega

theorem afterByte (hp : s.phase = phaseAbsorb) (b : Byte) : Inv (s.afterByte b) := by
  have hbuf : (s.storedByte b).buf.wf = true :=
    Memory.wf_writeBytes _ _ _ (Nat.succ_le_of_lt (Nat.lt_succ_of_le h.fillInBlock)) h.bufCanonical
  have hfill : (s.afterByte b).fill.toNat = (s.len + 1).toNat % 64 := by
    rw [State.afterByte_fill b h.fillInBlock, h.fill_succ hp]
  unfold State.afterByte at hfill ⊢
  split
  · next hlast =>
    rw [if_pos hlast] at hfill
    refine h.of_dispatch (by simpa using hbuf) rfl (State.dispatchBlock_stepNo _) ?fifth ?error (.inl ⟨?phase, ?fseq, ?fill⟩)
    case fifth => simpa [State.storedByte] using h.md5FifthWord
    case error => simp [State.storedByte]
    case phase => simpa [State.storedByte] using hp
    case fseq => simpa [State.storedByte] using h.fseq_eq_false hp
    case fill => simpa [State.storedByte] using hfill
  · next hne =>
    rw [if_neg hne] at hfill
    exact
      { h with
        bufCanonical := hbuf
        fillInBlock := by omega
        fillIsLen := fun _ => hfill
        fillOutside := fun hout => absurd hp hout }

theorem afterBytes (hp : s.phase = phaseAbsorb) (bytes : List Byte) : Inv (s.afterBytes bytes) := by
  induction bytes generalizing s with
  | nil => exact h
  | cons b bs ih => exact ih (h.afterByte hp b) ((s.afterByte_phase b).trans hp)

theorem closed : Inv s.closed := by
  have hbuf : s.closed.buf.wf = true := by
    unfold State.closed
    split
    · next h55 => simpa using State.wf_finishOneBuf h55 h.bufCanonical
    · simpa using State.wf_finishTwoBuf h.fillInBlock h.bufCanonical
  rw [State.closed_frame]
  exact h.of_dispatch hbuf rfl rfl h.md5FifthWord ⟨rfl, rfl⟩ (.inr ⟨rfl, rfl⟩)

/-- What only an open session accepts keeps the invariant if its act does. -/
theorem ifOpen (ht : s.phase = phaseAbsorb → Inv t) : Inv (t.ifOpen s) := by
  unfold State.ifOpen
  split
  · next hp => exact ht hp
  · exact h.raiseHostError (by decide)

/-- A performed write keeps the invariant. -/
theorem afterWrite (he : s.eng = engIdle) (i : Instr) : Inv (s.afterWrite i) := by
  cases i with
  | initMd5 => exact h.openSession he fun _ => rfl
  | initSha1 => exact h.openSession he fun h0 => absurd h0 (by decide)
  | finish => exact h.ifOpen fun _ => h.closed
  | clearErr => exact h.clearHostError
  | cmdIllegal _ | wrBad _ _ => exact h.raiseHostError (by decide)
  | dataB _ | dataW _ => exact h.ifOpen fun hp => h.afterBytes hp _
  | _ => exact h

/-- A step of the block keeps the invariant: STEP goes up to the number of steps, and ENG is CHAIN exactly there. -/
theorem blockStep (he : s.eng = engRun) : Inv s.blockStep := by
  have hlt := h.stepInRange he
  have hle := stepsOf_le s.alg
  have hsucc : (s.stepNo + 1).toNat = s.stepNo.toNat + 1 := by bv_omega
  have hphase := h.busyInSession (by rw [he]; decide)
  rw [State.blockStep_frame, State.blockStep_eng he]
  by_cases hlast : s.stepNo.toNat + 1 = stepsOf s.alg
  · rw [if_pos hlast]
    exact
      { h with
        engLegal := by simp
        stepInRange := by simp
        stepAtChain := fun _ => hsucc.trans hlast
        fseqBusy := by simp
        busyInSession := fun _ => hphase }
  · rw [if_neg hlast]
    exact
      { h with
        engLegal := by simp
        stepInRange := fun _ => by dsimp only; omega
        stepAtChain := by simp
        fseqBusy := by simp
        busyInSession := fun _ => hphase }

/-- MD5_CHAIN leaves HS[4]. -/
theorem chainBlock : Inv s.chainBlock := by
  rw [State.chainBlock_eq]
  refine { h with md5FifthWord := fun ha => ?_ }
  have ha' : s.alg = 0 := ha
  rw [State.chainBlock, if_pos ha']
  exact h.md5FifthWord ha'

/-- After the completion rule the engine is idle, or it starts the length block of a session that FINISH has closed. -/
theorem completed : Inv s.completed := by
  cases hq : s.fseq with
  | true =>
    have hdone := h.fseqDone hq
    have hfill := h.fillOutside (by rw [hdone]; decide)
    rw [State.completed_first hq, State.sendBlock_frame, State.sendBlock_buf]
    exact h.of_dispatch (State.wf_lengthBuf h.bufCanonical) rfl rfl h.md5FifthWord ⟨rfl, rfl⟩ (.inr ⟨hdone, hfill⟩)
  | false =>
    rw [State.completed_last hq]
    exact
      { h with
        engLegal := by simp
        stepInRange := by simp
        stepAtChain := by simp
        fseqBusy := by simp [hq]
        busyInSession := fun hbusy => absurd rfl hbusy }

theorem engineNext : Inv s.engineNext := by
  unfold State.engineNext
  split
  · next he => exact h.blockStep he
  · exact h.chainBlock.completed

theorem takeTurn : Inv s.takeTurn := h.onBus

end Inv

/-- Whatever was in flight, the state after a reset is that of `State.reset`, the bus aside. -/
theorem inv_takeReset (s : State) (keeps : Bool) : Inv (s.takeReset keeps) := invHoldsAtReset.onBus

/-- Settles O17, by the transition that the step is. -/
theorem everyStepKeepsInv : Obligations.EveryStepKeepsInv := by
  intro s t h hstep
  obtain ⟨-, hmove⟩ := step_moves hstep
  cases hmove with
  | reset keeps => exact inv_takeReset s keeps
  | waits => exact h.takeTurn
  | reads => exact h.onBus
  | @writes tw rest _ _ he =>
    have hbus : Inv (s.onBus rest s.sched.tail none) := h.onBus
    exact hbus.afterWrite he _
  | engine => exact h.engineNext.takeTurn

/-! ## Every step completes (R136) -/

section
variable {s : State}

/-- The engine's turn comes only to a busy engine (R119). -/
theorem notIdle_of_nextTurn (ht : s.nextTurn = .engine) : s.eng ≠ engIdle := by
  intro he
  unfold State.nextTurn at ht
  split at ht <;> simp [he] at ht

namespace Inv

variable (h : Inv s)
include h

theorem busy (he : s.eng ≠ engIdle) : Busy s := ⟨h.unbroken, he⟩

theorem not_pastBuffer (i : Instr) : s.pastBuffer i = false := by
  have := h.fillInBlock
  simp [State.pastBuffer]
  omega

/-- A performed write completes. -/
theorem step_write {tw : Tw} {rest : List Tw} (he : s.eng = engIdle) (ht : s.nextTurn = .host) (hq : s.hostq = tw :: rest)
    (hr : isRead tw = false) : step s = .next ((s.onBus rest s.sched.tail none).afterWrite (decodeTw tw)) := by
  rw [step_host h.unbroken ht, hostTransition_write h.unbroken he hq hr, if_neg (by simp [h.not_pastBuffer])]

/-- An idle machine's step completes. -/
theorem step_idle (he : s.eng = engIdle) (ht : s.nextTurn = .host) : ∃ t, step s = .next t := by
  cases hq : s.hostq with
  | nil => exact ⟨_, by rw [step_host h.unbroken ht, hostTransition_nil hq]⟩
  | cons tw rest =>
    cases hr : isRead tw with
    | true => exact ⟨_, by rw [step_host h.unbroken ht, hostTransition_read h.unbroken hq hr]⟩
    | false => exact ⟨_, h.step_write he ht hq hr⟩

end Inv
end

/-- Settles O18, by the turn: what can fault is a write past BUF, and the invariant keeps FILL inside. -/
theorem noStepFromInvStops : Obligations.NoStepFromInvStops := by
  intro s h
  cases ht : s.nextTurn with
  | reset keeps => exact ⟨_, step_reset h.unbroken ht⟩
  | engine => exact ⟨_, step_engineNext (h.busy (notIdle_of_nextTurn ht)) ht⟩
  | host =>
    by_cases he : s.eng = engIdle
    · exact h.step_idle he ht
    · obtain ⟨tw, rest, v, -, -, hstep⟩ := step_read_while_busy h.unbroken he ht
      exact ⟨_, hstep⟩

/-! ## A busy engine becomes idle (R116, R119) -/

/-- How many transitions the engine still has to make before it is idle: the steps left of the block in flight, its
chaining, and with FSEQ = 1 the length block. -/
def State.engineLeft (s : State) : Nat :=
  if s.eng = engIdle then 0
  else (if s.eng = engRun then stepsOf s.alg - s.stepNo.toNat else 0) + 1 + if s.fseq then stepsOf s.alg + 1 else 0

section
variable {s : State}

theorem State.engineLeft_idle (he : s.eng = engIdle) : s.engineLeft = 0 := if_pos he

theorem State.engineLeft_run (he : s.eng = engRun) :
    s.engineLeft = stepsOf s.alg - s.stepNo.toNat + 1 + if s.fseq then stepsOf s.alg + 1 else 0 := by
  rw [State.engineLeft, if_neg (by rw [he]; decide), if_pos he]

theorem State.engineLeft_chain (he : s.eng = engChain) :
    s.engineLeft = 1 + if s.fseq then stepsOf s.alg + 1 else 0 := by
  rw [State.engineLeft, if_neg (by rw [he]; decide), if_neg (by rw [he]; decide), Nat.zero_add]

theorem State.engineLeft_le (s : State) : s.engineLeft ≤ 162 := by
  have := stepsOf_le s.alg
  unfold State.engineLeft
  split_ifs <;> omega

theorem State.engineLeft_eq_zero_iff : s.engineLeft = 0 ↔ s.eng = engIdle := by
  refine ⟨fun h0 => ?_, State.engineLeft_idle⟩
  unfold State.engineLeft at h0
  split_ifs at h0 with he
  exact he

/-- With FSEQ = 1 the whole length block is left after the completion rule. -/
theorem State.engineLeft_completed (s : State) : s.completed.engineLeft = if s.fseq then stepsOf s.alg + 1 else 0 := by
  cases hq : s.fseq with
  | true =>
    rw [State.completed_first hq, State.sendBlock_frame, State.engineLeft_run rfl]
    simp
  | false =>
    rw [State.completed_last hq, State.engineLeft_idle rfl]
    rfl

namespace Inv

variable (h : Inv s)
include h

theorem engineLeft_blockStep (he : s.eng = engRun) : s.blockStep.engineLeft + 1 = s.engineLeft := by
  have hlt := h.stepInRange he
  have hle := stepsOf_le s.alg
  have hsucc : (s.stepNo + 1).toNat = s.stepNo.toNat + 1 := by bv_omega
  have heng := State.blockStep_eng he
  rw [State.engineLeft_run he]
  by_cases hlast : s.stepNo.toNat + 1 = stepsOf s.alg
  · rw [if_pos hlast] at heng
    rw [State.engineLeft_chain heng, State.blockStep_frame]
    dsimp only
    omega
  · rw [if_neg hlast] at heng
    rw [State.engineLeft_run heng, State.blockStep_frame]
    dsimp only
    omega

theorem engineLeft_engineNext (he : s.eng ≠ engIdle) : s.engineNext.engineLeft + 1 = s.engineLeft := by
  unfold State.engineNext
  obtain hidle | hrun | hchain := eng_cases h.unbroken
  · exact absurd hidle he
  · rw [if_pos hrun]
    exact h.engineLeft_blockStep hrun
  · rw [if_neg (by rw [hchain]; decide)]
    rw [State.engineLeft_chain hchain, State.engineLeft_completed, State.chainBlock_eq, Nat.add_comm]

/-- The engine stays busy until it has made the transitions left, and is idle then. -/
theorem iterate_engineLeft (n : Nat) (hn : s.engineLeft = n) :
    (∀ i < n, Busy (State.engineNext^[i] s)) ∧ (State.engineNext^[n] s).eng = engIdle := by
  induction n generalizing s with
  | zero => exact ⟨by simp, State.engineLeft_eq_zero_iff.mp hn⟩
  | succ n ih =>
    have he : s.eng ≠ engIdle := fun hidle => by rw [State.engineLeft_idle hidle] at hn; cases hn
    obtain ⟨hbusy, hidle⟩ := ih h.engineNext (by have := h.engineLeft_engineNext he; omega)
    refine ⟨fun i hi => ?_, hidle⟩
    cases i with
    | zero => exact h.busy he
    | succ i => exact hbusy i (by omega)

/-- The engine's transitions up to its being idle, with the reads performed meanwhile. -/
theorem engineRuns (hn : noReset s.sched = true) : EngineRuns s.engineLeft s :=
  Machine.engineRuns _ _ hn (h.iterate_engineLeft _ rfl).1

theorem engine_drained : (State.engineNext^[s.engineLeft] s).eng = engIdle := (h.iterate_engineLeft _ rfl).2

end Inv

/-- No read is performed while a write waits before it (R116). -/
theorem no_reads_before_write {tw : Tw} {rest reads rest' : List Tw} (hr : isRead tw = false)
    (hq : tw :: rest = reads ++ rest') (hreads : ∀ w ∈ reads, isRead w = true) : reads = [] ∧ rest' = tw :: rest := by
  cases reads with
  | nil => exact ⟨rfl, hq.symm⟩
  | cons w ws =>
    have hw : tw = w := (List.cons.inj hq).1
    have := hreads w (List.mem_cons_self ..)
    rw [← hw, hr] at this
    cases this

end

/-- Settles O12: the write at the head of the bus keeps every read off it, so that the steps are those of
`State.engineLeft`. -/
theorem waitingWriteIsAccepted : Obligations.WaitingWriteIsAccepted := by
  intro s tw rest h hn hq hr
  obtain ⟨reads, rest', r, hq', hreads, -, hlast⟩ := h.engineRuns hn
  obtain ⟨rfl, rfl⟩ := no_reads_before_write hr (hq.symm.trans hq') hreads
  exact ⟨s.engineLeft, s.engineLeft_le, _, hlast, h.engine_drained, rfl⟩

end Sys2Proof.Machine
end

section
/-! PROOFS. What the spec leaves unspecified (spec/10_state.md R22, R35, 70_reset_and_hazards.md R157, 93 part 1): two states
that differ only in it (`SameVisible`) are the same state but for BUF, MW and WK, and every operation that a step can run
takes two such states to two such states. -/

namespace Sys2Proof.Machine

/-! ## Two states that cannot be told apart -/

/-- s with other contents of what can be unspecified. -/
def State.withHidden (buf : Memory) (mw : Vector Word 16) (wk : Vector Word 5) (s : State) : State :=
  { s with buf := buf, mw := mw, wk := wk }

theorem readValue_withHidden (i : Instr) (s : State) (buf : Memory) (mw : Vector Word 16) (wk : Vector Word 5) :
    readValue i (s.withHidden buf mw wk) = readValue i s := by
  cases i <;> rfl

theorem State.sendBlock_mw (s : State) (m : Memory) (fseq : Bool) (fill : BitVec 7) :
    (s.sendBlock m fseq fill).mw = wordsOf s.alg ((List.range 64).map m.read) := by
  rw [(s.handedOver_sendBlock m fseq fill).words, State.bufBlock, State.sendBlock_buf]

theorem map_read_congr {m m' : Memory} (h : ∀ a < 64, m.read a = m'.read a) :
    (List.range 64).map m.read = (List.range 64).map m'.read :=
  List.map_congr_left fun a ha => h a (List.mem_range.mp ha)

/-- PAD_APPEND that does not complete the block. -/
theorem State.afterByte_before_last {s : State} (b : Byte) (hf : s.fill ≠ 63) : s.afterByte b = s.storedByte b := if_neg hf

/-- PAD_APPEND that completes the block. -/
theorem State.afterByte_last {s : State} (b : Byte) (hf : s.fill = 63) :
    s.afterByte b = (s.storedByte b).sendBlock (s.storedByte b).buf s.fseq 0 := by
  rw [State.afterByte, if_pos hf, State.sendBlock, State.dispatchBlock_eq]
  rfl

namespace SameVisible

theorem refl (s : State) : SameVisible s s :=
  ⟨rfl, rfl, rfl, rfl, rfl, rfl, rfl, rfl, rfl, rfl, rfl, rfl, rfl, fun _ _ _ => rfl, fun _ => rfl,
    fun _ => ⟨rfl, rfl, rfl, rfl⟩, fun _ _ => rfl⟩

section
variable {s t : State} (h : SameVisible s t)
include h

theorem frame : t = s.withHidden t.buf t.mw t.wk :=
  State.ext h.hs.symm rfl rfl h.stepNo.symm h.eng.symm h.fseq.symm rfl h.fill.symm h.len.symm h.alg.symm h.phase.symm
    h.err.symm h.errcode.symm h.hostq.symm h.sched.symm h.resp.symm

theorem broken_eq : t.broken = s.broken := by
  rw [h.frame]
  rfl

theorem nextTurn_eq : t.nextTurn = s.nextTurn := by
  rw [h.frame]
  rfl

theorem pastBuffer_eq (i : Instr) : t.pastBuffer i = s.pastBuffer i := by
  rw [h.frame]
  rfl

theorem readValue_eq (i : Instr) : readValue i t = readValue i s := by
  rw [h.frame]
  exact readValue_withHidden ..

theorem takeReset_eq (keeps : Bool) : t.takeReset keeps = s.takeReset keeps := by
  rw [h.frame]
  rfl

/-! ## The operations of a step -/

theorem onBus (q : List Tw) (c : List Turn) (r : Option Word) : SameVisible (s.onBus q c r) (t.onBus q c r) :=
  { h with hostq := rfl, sched := rfl, resp := rfl }

theorem takeTurn : SameVisible s.takeTurn t.takeTurn := by
  have hbus := h.onBus s.hostq s.sched.tail s.resp
  rw [State.takeTurn_eq_onBus, State.takeTurn_eq_onBus, ← h.hostq, ← h.sched, ← h.resp]
  exact hbus

theorem raiseHostError (code : BitVec 4) : SameVisible (s.raiseHostError code) (t.raiseHostError code) :=
  { h with err := rfl, errcode := by simp [h.err, h.errcode] }

theorem clearHostError : SameVisible s.clearHostError t.clearHostError := { h with err := rfl, errcode := rfl }

/-- With no block in flight, a session on the empty message shows nothing of BUF, MW and WK. -/
theorem openSession (he : s.eng = engIdle) (alg : BitVec 1) (initial : Vector Word 5) :
    SameVisible (s.openSession alg initial) (t.openSession alg initial) :=
  { h with
    hs := rfl, fseq := rfl, fill := rfl, len := rfl, alg := rfl, phase := rfl
    tail := by simp
    working4 := fun hbusy => absurd he hbusy }

/-- A block sent: what it latches is made of HS and of the 64 bytes sent. -/
theorem sendBlock {m m' : Memory} (hm : ∀ a < 64, m.read a = m'.read a) (fseq : Bool) (fill : BitVec 7)
    (htail : s.phase = phaseAbsorb → ∀ a < fill.toNat, m.read a = m'.read a) :
    SameVisible (s.sendBlock m fseq fill) (t.sendBlock m' fseq fill) := by
  have hsent := s.handedOver_sendBlock m fseq fill
  have hsent' := t.handedOver_sendBlock m' fseq fill
  have hwords : (s.sendBlock m fseq fill).mw = (t.sendBlock m' fseq fill).mw := by
    rw [State.sendBlock_mw, State.sendBlock_mw, map_read_congr hm, h.alg]
  have hworking4 (ha : s.alg = 1) : (s.sendBlock m fseq fill).wk[4] = (t.sendBlock m' fseq fill).wk[4] := by
    rw [hsent.working4, hsent'.working4, ← h.alg, ha, ← h.hs]
    rfl
  obtain ⟨h0, h1, h2, h3⟩ := hsent.working
  obtain ⟨h0', h1', h2', h3'⟩ := hsent'.working
  rw [← h.hs] at h0' h1' h2' h3'
  rw [State.sendBlock_frame s, State.sendBlock_frame t, State.sendBlock_buf, State.sendBlock_buf]
  exact
    { h with
      stepNo := rfl, eng := rfl, fseq := rfl, fill := rfl
      tail := htail
      words := fun _ => hwords
      working := fun _ => ⟨h0.trans h0'.symm, h1.trans h1'.symm, h2.trans h2'.symm, h3.trans h3'.symm⟩
      working4 := fun _ => hworking4 }

theorem storedByte (b : Byte) : SameVisible (s.storedByte b) (t.storedByte b) :=
  { h with
    fill := by simp [State.storedByte, h.fill]
    len := by simp [State.storedByte, h.len]
    tail := by
      intro hp a ha
      have ha' : a < s.fill.toNat + 1 := by
        change a < (s.fill + 1).toNat at ha
        bv_omega
      rw [State.read_storedByte, State.read_storedByte, ← h.fill]
      split
      · rfl
      · exact h.tail hp a (by omega) }

theorem afterByte (hp : s.phase = phaseAbsorb) (b : Byte) : SameVisible (s.afterByte b) (t.afterByte b) := by
  have hstored := h.storedByte b
  by_cases hlast : s.fill = 63
  · have hblock : ∀ a < 64, (s.storedByte b).buf.read a = (t.storedByte b).buf.read a := by
      have hfill : (s.storedByte b).fill.toNat = 64 := congrArg (fun f : BitVec 7 => (f + 1).toNat) hlast
      exact fun a ha => hstored.tail hp a (by omega)
    rw [State.afterByte_last b hlast, State.afterByte_last b (h.fill ▸ hlast), ← h.fseq]
    exact hstored.sendBlock hblock _ _ fun _ a ha => absurd ha (by simp)
  · rw [State.afterByte_before_last b hlast, State.afterByte_before_last b (h.fill ▸ hlast)]
    exact hstored

theorem afterBytes (hp : s.phase = phaseAbsorb) (bytes : List Byte) :
    SameVisible (s.afterBytes bytes) (t.afterBytes bytes) := by
  induction bytes generalizing s t with
  | nil => exact h
  | cons b bs ih => exact ih (h.afterByte hp b) ((s.afterByte_phase b).trans hp)

/-- The bytes of the final blocks are those below FILL, the padding and the length (R72, R73). -/
theorem finishOneBuf (hp : s.phase = phaseAbsorb) (hf : s.fill.toNat ≤ 55) (a : Nat) (ha : a < 64) :
    s.finishOneBuf.read a = t.finishOneBuf.read a := by
  rw [s.read_finishOneBuf hf, t.read_finishOneBuf (h.fill ▸ hf), State.bitlen, State.bitlen, ← h.fill, ← h.alg, ← h.len,
    if_pos ha, if_pos ha]
  split
  · next hlt => exact h.tail hp a hlt
  · rfl

theorem finishTwoBuf (hp : s.phase = phaseAbsorb) (hf : s.fill.toNat ≤ 63) (a : Nat) (ha : a < 64) :
    s.finishTwoBuf.read a = t.finishTwoBuf.read a := by
  rw [s.read_finishTwoBuf hf, t.read_finishTwoBuf (h.fill ▸ hf), ← h.fill, if_pos ha, if_pos ha]
  split
  · next hlt => exact h.tail hp a hlt
  · rfl

/-- Once the session is closed nothing of BUF is shown. -/
theorem closeSession : SameVisible { s with phase := phaseDone } { t with phase := phaseDone } :=
  { h with phase := rfl, tail := fun hp => absurd hp (by simp) }

theorem closed (hp : s.phase = phaseAbsorb) (hf : s.fill.toNat ≤ 63) : SameVisible s.closed t.closed := by
  unfold State.closed
  rw [← h.fill]
  split
  · next h55 => exact (h.sendBlock (h.finishOneBuf hp h55) false 0 fun _ a ha => absurd ha (by simp)).closeSession
  · exact (h.sendBlock (h.finishTwoBuf hp hf) true 0 fun _ a ha => absurd ha (by simp)).closeSession

theorem ifOpen {s' t' : State} (hopen : s.phase = phaseAbsorb → SameVisible s' t') :
    SameVisible (s'.ifOpen s) (t'.ifOpen t) := by
  unfold State.ifOpen
  rw [← h.phase]
  split
  · next hp => exact hopen hp
  · exact h.raiseHostError _

/-- A performed write that stays inside BUF. -/
theorem afterWrite (he : s.eng = engIdle) (i : Instr) (hin : s.pastBuffer i = false) :
    SameVisible (s.afterWrite i) (t.afterWrite i) := by
  cases i with
  | initMd5 | initSha1 => exact h.openSession he _ _
  | finish =>
    refine h.ifOpen fun hp => h.closed hp ?_
    simpa [State.pastBuffer, storesBytes, hp, Nat.lt_succ_iff] using hin
  | clearErr => exact h.clearHostError
  | cmdIllegal _ | wrBad _ _ => exact h.raiseHostError _
  | dataB _ | dataW _ => exact h.ifOpen fun hp => h.afterBytes hp _
  | _ => exact h

/-! ## The engine -/

theorem md5Step (he : s.eng ≠ engIdle) (ha : s.alg = 0) (fn : Word → Word → Word → Word) :
    SameVisible (s.md5Step fn) (t.md5Step fn) := by
  obtain ⟨h0, h1, h2, h3⟩ := h.working he
  have hmw := h.words he
  exact
    { h with
      stepNo := by simp [h.stepNo]
      eng := by simp [h.stepNo, h.eng]
      words := fun _ => hmw
      working := fun _ => by
        rw [State.md5Step_wk, State.md5Step_wk, ← hmw, ← h.stepNo, ← h0, ← h1, ← h2, ← h3]
        exact ⟨rfl, rfl, rfl, rfl⟩
      working4 := fun _ h1 => absurd (ha.symm.trans h1) (by decide) }

theorem sha1Step (he : s.eng ≠ engIdle) (ha : s.alg = 1) (fn : Word → Word → Word → Word) (k : Word) :
    SameVisible (s.sha1Step fn k) (t.sha1Step fn k) := by
  obtain ⟨h0, h1, h2, h3⟩ := h.working he
  have h4 := h.working4 he ha
  have hmw := h.words he
  have hwk : (s.sha1Step fn k).wk = (t.sha1Step fn k).wk := by
    rw [State.sha1Step_wk, State.sha1Step_wk, ← hmw, ← h.stepNo, ← h0, ← h1, ← h2, ← h3, ← h4]
  exact
    { h with
      stepNo := by simp [h.stepNo]
      eng := by simp [h.stepNo, h.eng]
      words := fun _ => by rw [State.sha1Step_mw, State.sha1Step_mw, ← hmw, ← h.stepNo]
      working := fun _ => by rw [hwk]; exact ⟨rfl, rfl, rfl, rfl⟩
      working4 := fun _ _ => by rw [hwk] }

theorem blockStep (he : s.eng ≠ engIdle) : SameVisible s.blockStep t.blockStep := by
  unfold State.blockStep
  rw [← h.alg, ← h.stepNo]
  split
  · next ha => exact h.md5Step he ha _
  · next ha => exact h.sha1Step he (alg_eq_one ha) _ _

/-- The chaining reads WK[4] under SHA-1 only (R94, R112). -/
theorem chainBlock (he : s.eng ≠ engIdle) : SameVisible s.chainBlock t.chainBlock := by
  obtain ⟨h0, h1, h2, h3⟩ := h.working he
  have hhs : s.chainBlock.hs = t.chainBlock.hs := by
    unfold State.chainBlock
    rw [← h.alg]
    split
    · rw [State.chainMd5_hs, State.chainMd5_hs, ← h.hs, h0, h1, h2, h3]
    · next ha =>
      rw [State.chainSha1_hs, State.chainSha1_hs, ← h.hs, h0, h1, h2, h3, h.working4 he (alg_eq_one ha)]
  rw [State.chainBlock_eq s, State.chainBlock_eq t]
  exact { h with hs := hhs }

/-- The length block is made of the length and of zeros (R74). -/
theorem lengthBuf (a : Nat) (ha : a < 64) : s.lengthBuf.read a = t.lengthBuf.read a := by
  rw [State.read_lengthBuf, State.read_lengthBuf, State.bitlen, State.bitlen, ← h.alg, ← h.len, if_pos ha, if_pos ha]

theorem completed : SameVisible s.completed t.completed := by
  cases hq : s.fseq with
  | true =>
    rw [State.completed_first hq, State.completed_first (h.fseq ▸ hq), ← h.fill]
    refine h.sendBlock h.lengthBuf _ _ fun hp a ha => ?_
    rw [State.read_lengthBuf, State.read_lengthBuf, State.bitlen, State.bitlen, ← h.alg, ← h.len, h.tail hp a ha]
  | false =>
    rw [State.completed_last hq, State.completed_last (h.fseq ▸ hq)]
    exact
      { h with
        eng := rfl
        words := fun hbusy => absurd rfl hbusy
        working := fun hbusy => absurd rfl hbusy
        working4 := fun hbusy => absurd rfl hbusy }

theorem engineNext (he : s.eng ≠ engIdle) : SameVisible s.engineNext t.engineNext := by
  unfold State.engineNext
  rw [← h.eng]
  split
  · exact h.blockStep he
  · exact (h.chainBlock he).completed

/-! ## A step -/

/-- The host's transaction of an idle engine, or a read (R116). -/
theorem hostTransition (hb : s.broken = none) (hturn : s.eng = engIdle ∨ s.readPending = true) :
    SameOutcome (hostTransition s) (hostTransition t) := by
  have hb' : t.broken = none := h.broken_eq.trans hb
  cases hq : s.hostq with
  | nil =>
    rw [hostTransition_nil hq, hostTransition_nil (h.hostq ▸ hq)]
    exact h.takeTurn
  | cons tw rest =>
    have hq' : t.hostq = tw :: rest := h.hostq ▸ hq
    cases hr : isRead tw with
    | true =>
      rw [hostTransition_read hb hq hr, hostTransition_read hb' hq' hr, h.readValue_eq, ← h.sched]
      exact h.onBus _ _ _
    | false =>
      have he : s.eng = engIdle := hturn.resolve_right (by rw [State.readPending_cons hq, hr]; decide)
      rw [hostTransition_write hb he hq hr, hostTransition_write hb' (h.eng ▸ he) hq' hr, h.pastBuffer_eq, ← h.sched]
      split
      · rfl
      · next hin =>
        have hbus := h.onBus rest s.sched.tail none
        exact hbus.afterWrite he _ (Bool.eq_false_iff.mpr hin)

end
end SameVisible

/-- The host's turn over a busy engine is a read (R116). -/
theorem idle_or_readPending {s : State} (ht : s.nextTurn = .host) : s.eng = engIdle ∨ s.readPending = true := by
  by_cases he : s.eng = engIdle
  · exact .inl he
  · refine .inr ?_
    unfold State.nextTurn at ht
    split at ht <;> simp_all

/-- Settles O26: the two states take the same turn, and every transition there keeps them alike. -/
theorem unspecifiedStateIsNeverObservable : Obligations.UnspecifiedStateIsNeverObservable := by
  intro s t h
  cases hb : s.broken with
  | some f =>
    rw [step, step, State.checked_broken hb, State.checked_broken (h.broken_eq.trans hb)]
    rfl
  | none =>
    have hb' : t.broken = none := h.broken_eq.trans hb
    cases ht : s.nextTurn with
    | reset keeps =>
      rw [step_reset hb ht, step_reset hb' (h.nextTurn_eq.trans ht), h.takeReset_eq]
      exact .refl _
    | host =>
      rw [step_host hb ht, step_host hb' (h.nextTurn_eq.trans ht)]
      exact h.hostTransition hb (idle_or_readPending ht)
    | engine =>
      have he := notIdle_of_nextTurn ht
      rw [step_engineNext ⟨hb, he⟩ ht, step_engineNext ⟨hb', h.eng ▸ he⟩ (h.nextTurn_eq.trans ht)]
      exact (h.engineNext he).takeTurn

end Sys2Proof.Machine
end

section
/-! PROOFS. The builder against the padding function (spec/40_padding.md R64, R68, R75): byte by byte, what BUF holds when a
block is sent is the block of the padded message. -/

namespace Sys2Proof.Machine

/-! ## The bytes of the padded message (R64) -/

section
variable (alg : BitVec 1) (m : List Byte)

theorem padMessage_getD_message {i : Nat} (hi : i < m.length) : (padMessage alg m).getD i 0 = m.getD i 0 := by
  rw [padMessage, List.append_assoc, List.append_assoc, List.getD_append _ _ _ _ hi]

theorem padMessage_getD_terminator : (padMessage alg m).getD m.length 0 = 0x80 := by
  rw [padMessage, List.append_assoc, List.append_assoc, List.getD_append_right _ _ _ _ le_rfl, Nat.sub_self]
  rfl

/-- Between the terminator and the last 8 bytes there are zeros. -/
theorem padMessage_getD_zero {i : Nat} (hlo : m.length < i) (hhi : i < 64 * blockCount m.length - 8) :
    (padMessage alg m).getD i 0 = 0 := by
  have hfill := zeroCount_fills_blocks m.length
  have hbody : i < (m ++ [0x80] ++ List.replicate (zeroCount m.length) (0 : Byte)).length := by
    simp only [List.length_append, List.length_singleton, List.length_replicate]
    omega
  have hzeros : (m ++ [(0x80 : Byte)]).length ≤ i := by
    rw [List.length_append, List.length_singleton]
    omega
  rw [padMessage, List.getD_append _ _ _ _ hbody, List.getD_append_right _ _ _ _ hzeros]
  exact getD_zeros _ _

theorem padMessage_getD_length (k : Nat) :
    (padMessage alg m).getD (64 * blockCount m.length - 8 + k) 0 =
      (lengthBytes alg (messageBits m.length)).getD k 0 := by
  have hfill := zeroCount_fills_blocks m.length
  have hbody : (m ++ [0x80] ++ List.replicate (zeroCount m.length) (0 : Byte)).length =
      64 * blockCount m.length - 8 := by
    simp only [List.length_append, List.length_singleton, List.length_replicate]
    omega
  rw [padMessage, ← hbody, List.getD_append_right _ _ _ _ (Nat.le_add_right ..), Nat.add_sub_cancel_left]

/-- 64 bytes that are those of the padded message from 64j on are its block j (R68). -/
theorem map_read_eq_padBlock {buf : Memory} {j : Nat} (hj : j < blockCount m.length)
    (h : ∀ a < 64, buf.read a = (padMessage alg m).getD (64 * j + a) 0) :
    (List.range 64).map buf.read = padBlock alg m j := by
  have hlen := padMessage_length alg m
  refine List.ext_getElem ?_ fun a ha _ => ?_
  · simp only [List.length_map, List.length_range, padBlock, List.length_take, List.length_drop]
    omega
  · have ha64 : a < 64 := by simpa using ha
    rw [List.getElem_map, List.getElem_range, h a ha64, List.getD_eq_getElem _ _ (by omega)]
    simp only [padBlock, List.getElem_take, List.getElem_drop]

end

/-! ## A message byte (R70, R75) -/

namespace HoldsTail

variable {m : List Byte} {s : State} (h : HoldsTail m s)
include h

theorem fill_le : s.fill.toNat ≤ 63 := by
  have := h.filled
  omega

theorem fill_eq_last_iff : s.fill = 63 ↔ (m.length + 1) % 64 = 0 := by
  have := h.filled
  bv_omega

/-- The builder's length is the message's (R66). -/
theorem bitlen : s.bitlen = messageBits m.length := by
  rw [State.bitlen, h.count, messageBits, BitVec.ofNat_mul]
  rfl

/-- With the byte stored, BUF holds the message's last bytes up to it. -/
theorem read_storedByte (b : Byte) {a : Nat} (ha : a ≤ m.length % 64) :
    (s.storedByte b).buf.read a = (m ++ [b]).getD (64 * (m.length / 64) + a) 0 := by
  rw [State.read_storedByte, h.filled]
  split
  · next hlast =>
    have hindex : 64 * (m.length / 64) + a = m.length := by omega
    rw [hindex, List.getD_append_right _ _ _ _ le_rfl, Nat.sub_self, List.getD_cons_zero]
  · rw [h.tail a (by omega), List.getD_append _ _ _ _ (by omega)]

/-- The byte that completes a block completes that block of the padded message, whatever follows. -/
theorem storedByte_block (alg : BitVec 1) (b : Byte) (rest : List Byte) (hlast : (m.length + 1) % 64 = 0) :
    (s.storedByte b).bufBlock = padBlock alg (m ++ [b] ++ rest) (m.length / 64) := by
  have hlen : (m ++ [b] ++ rest).length = m.length + 1 + rest.length := by
    rw [List.length_append, List.length_append, List.length_singleton]
  refine map_read_eq_padBlock _ _ (by rw [hlen, blockCount]; omega) fun a ha => ?_
  rw [h.read_storedByte b (by omega), padMessage_getD_message _ _ (by omega), List.getD_append (m ++ [b]) rest _ _ ?_]
  rw [List.length_append, List.length_singleton]
  omega

theorem afterByte (b : Byte) : HoldsTail (m ++ [b]) (s.afterByte b) where
  absorbing := (s.afterByte_phase b).trans h.absorbing
  count := by
    rw [State.afterByte_len, h.count, List.length_append, List.length_singleton, BitVec.ofNat_add]
    rfl
  filled := by rw [State.afterByte_fill b h.fill_le, h.filled, List.length_append, List.length_singleton]; omega
  tail := by
    rw [List.length_append, List.length_singleton]
    intro a ha
    have hlast : s.fill ≠ 63 := by
      rw [Ne, h.fill_eq_last_iff]
      omega
    have hblock : (m.length + 1) / 64 = m.length / 64 := by
      rw [Ne, h.fill_eq_last_iff] at hlast
      omega
    rw [State.afterByte_before_last b hlast, hblock, h.read_storedByte b (by omega)]

end HoldsTail

section
variable (s : State) (buf : Memory) (fseq : Bool) (fill : BitVec 7)

@[simp] theorem State.sendBlock_stepNo : (s.sendBlock buf fseq fill).stepNo = 0 := by rw [State.sendBlock_frame]
@[simp] theorem State.sendBlock_hs : (s.sendBlock buf fseq fill).hs = s.hs := by rw [State.sendBlock_frame]
@[simp] theorem State.sendBlock_alg : (s.sendBlock buf fseq fill).alg = s.alg := by rw [State.sendBlock_frame]
@[simp] theorem State.sendBlock_phase : (s.sendBlock buf fseq fill).phase = s.phase := by rw [State.sendBlock_frame]
@[simp] theorem State.sendBlock_len : (s.sendBlock buf fseq fill).len = s.len := by rw [State.sendBlock_frame]

end

/-- Settles O45: what is kept by `HoldsTail.afterByte`, what is sent by `HoldsTail.storedByte_block`. -/
theorem builderSendsTheMessageBlocks : Obligations.BuilderSendsTheMessageBlocks := by
  intro m b s hb h
  have habs : Absorbing s := ⟨hb, h.absorbing, h.fill_le⟩
  refine ⟨s.afterByte b, habs.exec_padAppend b, h.afterByte b, s.afterByte_alg b, fun hlast => ?sent, fun hmore => ?kept⟩
  case sent =>
    rw [State.afterByte_last b (h.fill_eq_last_iff.mpr hlast)]
    refine ⟨rfl, State.sendBlock_stepNo .., fun rest => ?_⟩
    rw [State.sendBlock_mw, ← h.storedByte_block s.alg b rest hlast]
    rfl
  case kept =>
    rw [State.afterByte_before_last b (h.fill_eq_last_iff.not.mpr hmore)]
    exact ⟨rfl, rfl⟩

/-! ## The final blocks (R72, R73, R74, R75) -/

namespace HoldsTail

variable {m : List Byte} {s : State} (h : HoldsTail m s)
include h

/-- PAD_FINISH_ONE sends the last block of the padded message. -/
theorem finishOne_block (hone : m.length % 64 ≤ 55) :
    (List.range 64).map s.finishOneBuf.read = padBlock s.alg m (m.length / 64) := by
  have hcount : blockCount m.length = m.length / 64 + 1 := by
    rw [blockCount]
    omega
  refine map_read_eq_padBlock _ _ (by omega) fun a ha => ?_
  rw [s.read_finishOneBuf (h.filled ▸ hone), h.filled, h.bitlen]
  split_ifs with htail hterm hzero
  · rw [h.tail a htail, padMessage_getD_message _ _ (by omega)]
  · rw [← padMessage_getD_terminator s.alg m]
    congr 1
    omega
  · rw [padMessage_getD_zero _ _ (by omega) (by omega)]
  · rw [← padMessage_getD_length]
    congr 1
    omega

/-- PAD_FINISH_TWO sends the last block but one. -/
theorem finishTwo_block (htwo : 56 ≤ m.length % 64) :
    (List.range 64).map s.finishTwoBuf.read = padBlock s.alg m (m.length / 64) := by
  have hcount : blockCount m.length = m.length / 64 + 2 := by
    rw [blockCount]
    omega
  refine map_read_eq_padBlock _ _ (by omega) fun a ha => ?_
  rw [s.read_finishTwoBuf h.fill_le, h.filled]
  split_ifs with htail hterm
  · rw [h.tail a htail, padMessage_getD_message _ _ (by omega)]
  · rw [← padMessage_getD_terminator s.alg m]
    congr 1
    omega
  · rw [padMessage_getD_zero _ _ (by omega) (by omega)]

/-- PAD_LENBLOCK then sends the last: it holds nothing of the message but its length. -/
theorem length_block (htwo : 56 ≤ m.length % 64) {u : State} (hlen : u.len = s.len) (halg : u.alg = s.alg) :
    (List.range 64).map u.lengthBuf.read = padBlock s.alg m (m.length / 64 + 1) := by
  have hcount : blockCount m.length = m.length / 64 + 2 := by
    rw [blockCount]
    omega
  have hbits : u.bitlen = messageBits m.length := by rw [← h.bitlen, State.bitlen, State.bitlen, hlen]
  refine map_read_eq_padBlock _ _ (by omega) fun a ha => ?_
  rw [u.read_lengthBuf, halg, hbits, if_pos ha]
  split_ifs with hzero
  · rw [padMessage_getD_zero _ _ (by omega) (by omega)]
  · rw [← padMessage_getD_length]
    congr 1
    omega

end HoldsTail

theorem State.closed_one {s : State} (hf : s.fill.toNat ≤ 55) :
    s.closed = { s.sendBlock s.finishOneBuf false 0 with phase := phaseDone } := by
  rw [State.closed, if_pos hf]

theorem State.closed_two {s : State} (hf : 56 ≤ s.fill.toNat) :
    s.closed = { s.sendBlock s.finishTwoBuf true 0 with phase := phaseDone } := by
  rw [State.closed, if_neg (by omega)]

/-- Settles O46: FINISH is `State.closed`, and the blocks are those of `HoldsTail`. -/
theorem builderSendsTheFinalBlocks : Obligations.BuilderSendsTheFinalBlocks := by
  intro m s hb he h
  have hresp : HoldsTail m { s with resp := none } := { h with }
  have hfilled := hresp.filled
  refine ⟨_, exec_finish_open hb he h.absorbing h.fill_le, ?eng, ?stepNo, ?alg, ?len, ?phase, fun hone => ?last,
    fun htwo => ?lastButOne⟩
  case eng | stepNo | alg | len | phase => rw [State.closed_frame]
  case last =>
    have hcount : blockCount m.length - 1 = m.length / 64 := by
      rw [blockCount]
      omega
    rw [State.closed_one (by omega), hcount]
    exact ⟨rfl, (State.sendBlock_mw _ _ false 0).trans (congrArg (wordsOf s.alg) (hresp.finishOne_block hone))⟩
  case lastButOne =>
    have hcount : blockCount m.length - 2 = m.length / 64 ∧ blockCount m.length - 1 = m.length / 64 + 1 := by
      rw [blockCount]
      omega
    rw [State.closed_two (by omega), hcount.1, hcount.2]
    refine ⟨rfl, (State.sendBlock_mw _ _ true 0).trans (congrArg (wordsOf s.alg) (hresp.finishTwo_block htwo)),
      fun u v hlen halg hexec => ?_⟩
    have hlen' : u.len = s.len := hlen.trans (State.sendBlock_len _ _ true 0)
    have halg' : u.alg = s.alg := halg.trans (State.sendBlock_alg _ _ true 0)
    have hv : v = u.sendBlock u.lengthBuf false u.fill := by
      cases exec_cases hexec with
      | performed hi | held hi | answered hi => cases hi
      | triggered => rfl
    rw [hv, State.sendBlock_mw, halg', h.length_block htwo hlen' halg']

end Sys2Proof.Machine
end

section
/-! PROOFS. A whole session (spec/43_host_interface.md R134, with 41_md5.md R96 and 42_sha1.md R114): with the engine idle, HS is
the hash of the blocks that the bytes appended so far have filled; a data write appends its bytes and may hand over one
more block, which the engine, run until it is idle, adds to the hash; and FINISH hands over the last one or two. The reads
that the schedule lets through in between leave no trace. -/

namespace Sys2Proof.Machine

/-! ## The hash so far -/

/-- HS after the first n blocks of pad(m), folded from the initial value (R96, R114). -/
def hashAfter (alg : BitVec 1) (m : List Byte) (n : Nat) : Vector Word 5 :=
  (List.range n).foldl (fun h j => compress alg h (padBlock alg m j)) (initialOf alg)

theorem hashState_eq_hashAfter (alg : BitVec 1) (m : List Byte) :
    hashState alg m = hashAfter alg m (blockCount m.length) := rfl

theorem hashAfter_succ (alg : BitVec 1) (m : List Byte) (n : Nat) :
    hashAfter alg m (n + 1) = compress alg (hashAfter alg m n) (padBlock alg m n) := by
  rw [hashAfter, List.range_succ, List.foldl_append]
  rfl

/-! ## A block in flight, whatever is appended meanwhile -/

/-- The engine stands at step 0 of a block that it has latched; BUF may have changed since. -/
structure Latched (block : List Byte) (u : State) : Prop where
  running : u.eng = engRun
  first : u.stepNo = 0
  source : ∃ s : State, s.bufBlock = block ∧ s.hs = u.hs ∧ s.alg = u.alg ∧ s.dispatchBlock.mw = u.mw ∧
    s.dispatchBlock.wk = u.wk

theorem latched_sendBlock {s : State} {buf : Memory} {fseq : Bool} {fill : BitVec 7} :
    Latched ((List.range 64).map buf.read) (s.sendBlock buf fseq fill) where
  running := rfl
  first := State.sendBlock_stepNo ..
  source := ⟨{ s with buf := buf }, rfl, (State.sendBlock_hs ..).symm, (State.sendBlock_alg ..).symm, rfl, rfl⟩

/-- What a block leaves in HS depends on HS, ALG, MW and WK at its start only. -/
theorem chainBlock_blockAt_hs_congr {u v : State} (hhs : u.hs = v.hs) (halg : u.alg = v.alg) (hmw : u.mw = v.mw)
    (hwk : u.wk = v.wk) (n : Nat) : (u.blockAt n).chainBlock.hs = (v.blockAt n).chainBlock.hs := by
  have hhs' : (u.blockAt n).hs = (v.blockAt n).hs := hhs
  have halg' : (u.blockAt n).alg = (v.blockAt n).alg := halg
  have hwk' : (u.blockAt n).wk = (v.blockAt n).wk := by
    rw [State.blockAt, State.blockAt, hwk, hmw, halg]
  unfold State.chainBlock
  rw [halg']
  split
  · rw [State.chainMd5_hs, State.chainMd5_hs, hhs', hwk']
  · rw [State.chainSha1_hs, State.chainSha1_hs, hhs', hwk']

/-- The transitions of a block leave the compression function in HS (R95, R113), and then the completion rule. -/
theorem Latched.iterate_engineNext {block : List Byte} {u : State} (h : Latched block u) :
    State.engineNext^[stepsOf u.alg + 1] u = (u.chainedTo (compress u.alg u.hs block)).completed := by
  obtain ⟨s, rfl, hhs, halg, hmw, hwk⟩ := h.source
  have hhash : (u.blockAt (stepsOf u.alg)).chainBlock.hs = compress u.alg u.hs s.bufBlock := by
    rw [← hhs, ← halg, ← chainBlock_blockAt_hs]
    exact chainBlock_blockAt_hs_congr ((State.dispatchBlock_hs s).trans hhs).symm ((State.dispatchBlock_alg s).trans halg).symm
      hmw.symm hwk.symm _
  rw [iterate_engineNext_last h.running h.first, State.chainBlock_eq, hhash]
  rfl

/-! ## The engine run until it is idle -/

/-- What the engine alone leaves once it is idle. -/
def State.drained (s : State) : State := State.engineNext^[s.engineLeft] s

theorem State.drained_idle {s : State} (he : s.eng = engIdle) : s.drained = s := by
  rw [State.drained, State.engineLeft_idle he]
  rfl

theorem Inv.drained {s : State} (h : Inv s) : Inv s.drained := by
  have hiter (n : Nat) : Inv (State.engineNext^[n] s) := by
    induction n with
    | zero => exact h
    | succ n ih =>
      rw [Function.iterate_succ_apply']
      exact ih.engineNext
  exact hiter _

namespace Latched

variable {block : List Byte} {u : State} (h : Latched block u)
include h

theorem engineLeft : u.engineLeft = stepsOf u.alg + 1 + if u.fseq then stepsOf u.alg + 1 else 0 := by
  rw [State.engineLeft_run h.running, h.first]
  rfl

/-- With FSEQ = 0 the engine is idle after the block. -/
theorem drained_last (hq : u.fseq = false) :
    u.drained = { u.chainedTo (compress u.alg u.hs block) with eng := engIdle } := by
  rw [State.drained, h.engineLeft, hq, if_neg (by decide), Nat.add_zero, h.iterate_engineNext]
  exact State.completed_last hq

theorem drained_last_fields (hq : u.fseq = false) :
    u.drained.phase = u.phase ∧ u.drained.alg = u.alg ∧ u.drained.hs = compress u.alg u.hs block := by
  rw [h.drained_last hq]
  exact ⟨rfl, rfl, rfl⟩

/-- With FSEQ = 1 the length block comes next. -/
theorem drained_first (hq : u.fseq = true) :
    u.drained = ((u.chainedTo (compress u.alg u.hs block)).sendBlock
      (u.chainedTo (compress u.alg u.hs block)).lengthBuf false u.fill).drained := by
  have hlength := (latched_sendBlock (s := u.chainedTo (compress u.alg u.hs block))
    (buf := (u.chainedTo (compress u.alg u.hs block)).lengthBuf) (fseq := false) (fill := u.fill)).engineLeft
  rw [State.sendBlock_alg] at hlength
  rw [State.drained, h.engineLeft, hq, if_pos rfl, Function.iterate_add_apply, h.iterate_engineNext,
    State.completed_first (s := u.chainedTo _) hq, State.drained, hlength]
  rfl

end Latched

/-! ## Bytes appended, and the hash of the blocks they fill -/

/-- The bytes m of the message `msg` are appended, and HS is the hash of the blocks they fill, or of all of these but the one
in flight. -/
structure Absorbs (alg : BitVec 1) (msg m : List Byte) (s : State) : Prop where
  selected : s.alg = alg
  tail : HoldsTail m s
  hashed : (s.eng = engIdle ∧ s.hs = hashAfter alg msg (m.length / 64)) ∨
    ∃ k, m.length / 64 = k + 1 ∧ Latched (padBlock alg msg k) s ∧ s.hs = hashAfter alg msg k

namespace Absorbs

variable {alg : BitVec 1} {msg m : List Byte} {s : State} (h : Absorbs alg msg m s)
include h

theorem onBus (q : List Tw) (c : List Turn) (r : Option Word) : Absorbs alg msg m (s.onBus q c r) where
  selected := h.selected
  tail := { h.tail with }
  hashed := by
    obtain hidle | ⟨k, hk, hlatched, hhs⟩ := h.hashed
    · exact .inl hidle
    · exact .inr ⟨k, hk, { hlatched with }, hhs⟩

theorem hs_of_idle (he : s.eng = engIdle) : s.hs = hashAfter alg msg (m.length / 64) := by
  obtain ⟨-, hhs⟩ | ⟨k, -, hlatched, -⟩ := h.hashed
  · exact hhs
  · rw [hlatched.running] at he
    cases he

/-- A byte that does not complete a block leaves the engine to itself. -/
theorem afterByte_before_last {b : Byte} (hmore : (m.length + 1) % 64 ≠ 0) :
    Absorbs alg msg (m ++ [b]) (s.afterByte b) where
  selected := (s.afterByte_alg b).trans h.selected
  tail := h.tail.afterByte b
  hashed := by
    have hblock : (m ++ [b]).length / 64 = m.length / 64 := by
      rw [List.length_append, List.length_singleton]
      omega
    rw [hblock, State.afterByte_before_last b (h.tail.fill_eq_last_iff.not.mpr hmore)]
    obtain hidle | ⟨k, hk, hlatched, hhs⟩ := h.hashed
    · exact .inl hidle
    · exact .inr ⟨k, hk, { hlatched with }, hhs⟩

/-- The byte that completes a block hands it over. -/
theorem afterByte_last {b : Byte} {rest : List Byte} (hmsg : msg = m ++ [b] ++ rest) (he : s.eng = engIdle)
    (hlast : (m.length + 1) % 64 = 0) : Absorbs alg msg (m ++ [b]) (s.afterByte b) where
  selected := (s.afterByte_alg b).trans h.selected
  tail := h.tail.afterByte b
  hashed := by
    have hblock : (m ++ [b]).length / 64 = m.length / 64 + 1 := by
      rw [List.length_append, List.length_singleton]
      omega
    refine .inr ⟨m.length / 64, hblock, ?_, (s.afterByte_hs b).trans (h.hs_of_idle he)⟩
    rw [State.afterByte_last b (h.tail.fill_eq_last_iff.mpr hlast), hmsg, ← h.tail.storedByte_block alg b rest hlast]
    exact latched_sendBlock

/-- A data write with the engine idle: its bytes are fewer than a block, so at most one of them completes one. -/
theorem afterBytes {bytes rest : List Byte} (hmsg : msg = m ++ bytes ++ rest)
    (hroom : (s.eng = engIdle ∧ bytes.length ≤ 64) ∨ m.length % 64 + bytes.length ≤ 63) :
    Absorbs alg msg (m ++ bytes) (s.afterBytes bytes) := by
  induction bytes generalizing m s with
  | nil => rwa [List.append_nil]
  | cons b bs ih =>
    rw [List.length_cons] at hroom
    have hmsg' : msg = m ++ [b] ++ bs ++ rest := by rw [hmsg]; simp
    have hlen : (m ++ [b]).length = m.length + 1 := by rw [List.length_append, List.length_singleton]
    have hsplit : m ++ b :: bs = m ++ [b] ++ bs := by simp
    rw [hsplit]
    by_cases hlast : (m.length + 1) % 64 = 0
    · obtain ⟨he, -⟩ := hroom.resolve_right (by omega)
      exact ih (h.afterByte_last (hmsg'.trans (List.append_assoc ..)) he hlast) hmsg' (.inr (by omega))
    · refine ih (h.afterByte_before_last hlast) hmsg' ?_
      obtain ⟨he, hle⟩ | hle := hroom
      · refine .inl ⟨?_, by omega⟩
        change (s.afterByte b).eng = engIdle
        rw [State.afterByte_before_last b (h.tail.fill_eq_last_iff.not.mpr hlast)]
        exact he
      · exact .inr (by omega)

/-- The engine adds the block in flight to the hash. -/
theorem drained (hq : s.fseq = false) : Absorbs alg msg m s.drained := by
  obtain ⟨he, -⟩ | ⟨k, hk, hlatched, hhs⟩ := h.hashed
  · rwa [State.drained_idle he]
  · rw [hlatched.drained_last hq]
    refine ⟨h.selected, { h.tail with }, .inl ⟨rfl, ?_⟩⟩
    rw [hk, hashAfter_succ, ← hhs, ← h.selected]
    rfl

/-! ## The final blocks -/

section
variable (he : s.eng = engIdle) (hall : m = msg)
include he hall

/-- FINISH with FILL up to 55, and the engine run until it is idle: the last block is added to the hash. -/
theorem closed_drained_one (hone : m.length % 64 ≤ 55) :
    s.closed.drained.phase = phaseDone ∧ s.closed.drained.alg = alg ∧ s.closed.drained.hs = hashState alg msg := by
  subst hall
  have hfill : s.fill.toNat ≤ 55 := h.tail.filled ▸ hone
  have hcount : blockCount m.length = m.length / 64 + 1 := by
    rw [blockCount]
    omega
  have hlatched : Latched (padBlock s.alg m (m.length / 64)) s.closed := by
    rw [State.closed_one hfill, ← h.tail.finishOne_block hone]
    exact { latched_sendBlock (s := s) (fseq := false) (fill := 0) with }
  have hfseq : s.closed.fseq = false := by rw [State.closed_one hfill]; rfl
  obtain ⟨hphase, halg, hhash⟩ := hlatched.drained_last_fields hfseq
  refine ⟨hphase.trans s.closed_phase, halg.trans (s.closed_alg.trans h.selected), ?_⟩
  rw [hhash, State.closed_alg, State.closed_hs, h.hs_of_idle he, h.selected, hashState_eq_hashAfter, hcount,
    hashAfter_succ]

/-- FINISH with FILL from 56 on: the last block but one is added, then the length block. -/
theorem closed_drained_two (htwo : 56 ≤ m.length % 64) :
    s.closed.drained.phase = phaseDone ∧ s.closed.drained.alg = alg ∧ s.closed.drained.hs = hashState alg msg := by
  subst hall
  have hfill : 56 ≤ s.fill.toNat := h.tail.filled ▸ htwo
  have hcount : blockCount m.length = m.length / 64 + 1 + 1 := by
    rw [blockCount]
    omega
  have hlatched : Latched (padBlock s.alg m (m.length / 64)) s.closed := by
    rw [State.closed_two hfill, ← h.tail.finishTwo_block htwo]
    exact { latched_sendBlock (s := s) (fseq := true) (fill := 0) with }
  have hfseq : s.closed.fseq = true := by rw [State.closed_two hfill]; rfl
  rw [hlatched.drained_first hfseq]
  generalize hu : s.closed.chainedTo (compress s.closed.alg s.closed.hs (padBlock s.alg m (m.length / 64))) = u
  have hulen : u.len = s.len := by rw [← hu]; exact s.closed_len
  have hualg : u.alg = s.alg := by rw [← hu]; exact s.closed_alg
  have huphase : u.phase = phaseDone := by rw [← hu]; exact s.closed_phase
  have huhs : u.hs = hashAfter alg m (m.length / 64 + 1) := by
    rw [← hu, hashAfter_succ, ← h.hs_of_idle he, ← h.selected, ← s.closed_alg, ← s.closed_hs]
    rfl
  have hlength := latched_sendBlock (s := u) (buf := u.lengthBuf) (fseq := false) (fill := s.closed.fill)
  rw [h.tail.length_block htwo hulen hualg] at hlength
  obtain ⟨hphase, halg, hhash⟩ := hlength.drained_last_fields rfl
  rw [State.sendBlock_phase] at hphase
  rw [State.sendBlock_alg] at halg hhash
  rw [State.sendBlock_hs] at hhash
  refine ⟨hphase.trans huphase, halg.trans (hualg.trans h.selected), ?_⟩
  rw [hhash, huhs, hualg, h.selected, hashState_eq_hashAfter, hcount, hashAfter_succ alg m (m.length / 64 + 1)]

theorem closed_drained :
    s.closed.drained.phase = phaseDone ∧ s.closed.drained.alg = alg ∧ s.closed.drained.hs = hashState alg msg := by
  obtain hone | htwo : m.length % 64 ≤ 55 ∨ 56 ≤ m.length % 64 := by omega
  · exact h.closed_drained_one he hall hone
  · exact h.closed_drained_two he hall htwo

end

end Absorbs

/-- INIT opens a session on the empty message: no block is filled, and HS is the initial value (R121, R122). -/
theorem absorbs_openSession {s : State} (he : s.eng = engIdle) (alg : BitVec 1) (msg : List Byte) :
    Absorbs alg msg [] (s.openSession alg (initialOf alg)) where
  selected := rfl
  tail := ⟨rfl, rfl, rfl, fun _ ha => absurd ha (Nat.not_lt_zero _)⟩
  hashed := .inl ⟨he, rfl⟩

/-! ## Runs -/

/-- Some run goes from s to t. -/
def Reaches (s t : State) : Prop := ∃ n, Sys2Proof.core.run n s = .next t

theorem Reaches.refl (s : State) : Reaches s s := ⟨0, rfl⟩

theorem core_run_add {s t : State} {n : Nat} (h : Sys2Proof.core.run n s = .next t) (k : Nat) :
    Sys2Proof.core.run (n + k) s = Sys2Proof.core.run k t := by
  induction n generalizing s with
  | zero =>
    cases h
    rw [Nat.zero_add]
  | succ n ih =>
    rw [Nat.add_right_comm]
    cases hstep : step s with
    | next u =>
      rw [core_run_succ hstep] at h ⊢
      exact ih h
    | fault f =>
      have hcore : Sys2Proof.core.step s = .fault f := hstep
      simp only [Host.Core.run, hcore] at h
      cases h
    | refused f =>
      have hcore : Sys2Proof.core.step s = .refused f := hstep
      simp only [Host.Core.run, hcore] at h
      cases h

theorem Reaches.trans {s t u : State} (h : Reaches s t) (h' : Reaches t u) : Reaches s u := by
  obtain ⟨n, hn⟩ := h
  obtain ⟨k, hk⟩ := h'
  exact ⟨n + k, (core_run_add hn k).trans hk⟩

theorem Reaches.of_step {s t : State} (h : step s = .next t) : Reaches s t := ⟨1, core_run_succ h 0⟩

theorem noReset_drop {c : List Turn} (h : noReset c = true) (n : Nat) : noReset (c.drop n) = true :=
  List.all_eq_true.mpr fun u hu => List.all_eq_true.mp h u (List.mem_of_mem_drop hu)

/-- An idle machine of the invariant with q on the bus and no reset to come. -/
structure Ready (q : List Tw) (s : State) : Prop where
  inv : Inv s
  idle : s.eng = engIdle
  bus : s.hostq = q
  noReset : noReset s.sched = true

/-- Every machine of the invariant comes to be ready, some reads performed: by the engine's transitions alone. -/
theorem Inv.reaches_ready {s : State} (h : Inv s) (hn : Machine.noReset s.sched = true) :
    ∃ reads rest c r, s.hostq = reads ++ rest ∧ (∀ tw ∈ reads, isRead tw = true) ∧
      Reaches s (s.drained.onBus rest c r) ∧ Ready rest (s.drained.onBus rest c r) := by
  obtain ⟨reads, rest, r, hq, hreads, -, hlast⟩ := h.engineRuns hn
  exact ⟨reads, rest, _, r, hq, hreads, ⟨_, hlast⟩, h.drained.onBus, h.engine_drained, rfl, noReset_drop hn _⟩

namespace Ready

variable {tw : Tw} {q : List Tw} {s : State} (h : Ready (tw :: q) s)
include h

theorem nextTurn : s.nextTurn = .host := by
  refine nextTurn_idle (fun keeps hhead => ?_) h.idle
  have hn := h.noReset
  cases hs : s.sched with
  | nil => simp [hs] at hhead
  | cons u rest =>
    rw [hs] at hhead hn
    cases hhead
    simp [Machine.noReset] at hn

/-- A read is performed and leaves no trace but its response. -/
theorem read (hr : isRead tw = true) : ∃ c r, Reaches s (s.onBus q c r) ∧ Ready q (s.onBus q c r) := by
  have hstep := (step_host h.inv.unbroken h.nextTurn).trans (hostTransition_read h.inv.unbroken h.bus hr)
  exact ⟨_, _, .of_step hstep, h.inv.onBus, h.idle, rfl, noReset_tail h.noReset⟩

/-- A write is performed, and the engine then runs until it is idle. -/
theorem write (hr : isRead tw = false) :
    ∃ u reads rest c r, u = s.onBus q s.sched.tail none ∧ q = reads ++ rest ∧ (∀ tw ∈ reads, isRead tw = true) ∧
      Inv (u.afterWrite (decodeTw tw)) ∧
      Reaches s ((u.afterWrite (decodeTw tw)).drained.onBus rest c r) ∧
      Ready rest ((u.afterWrite (decodeTw tw)).drained.onBus rest c r) := by
  have hstep := h.inv.step_write h.idle h.nextTurn h.bus hr
  have hbus : Inv (s.onBus q s.sched.tail none) := h.inv.onBus
  have hinv := hbus.afterWrite h.idle (decodeTw tw)
  obtain ⟨hq, hc, -⟩ := State.afterWrite_bus (i := decodeTw tw) (s := s.onBus q s.sched.tail none)
  have hn : Machine.noReset ((s.onBus q s.sched.tail none).afterWrite (decodeTw tw)).sched = true := by
    rw [hc]
    exact noReset_tail h.noReset
  obtain ⟨reads, rest, c, r, hq', hreads, hreach, hready⟩ := hinv.reaches_ready hn
  exact ⟨_, reads, rest, c, r, rfl, hq.symm.trans hq', hreads, hinv, (Reaches.of_step hstep).trans hreach, hready⟩

end Ready

/-! ## The transactions of a session -/

/-- The reads performed while the engine is busy come off the front of what the host has still to issue. -/
theorem reads_before_write {tw : Tw} {body tail reads rest : List Tw} (hr : isRead tw = false)
    (hq : body ++ tw :: tail = reads ++ rest) (hreads : ∀ w ∈ reads, isRead w = true) :
    ∃ later, body = reads ++ later ∧ rest = later ++ tw :: tail := by
  induction reads generalizing body with
  | nil => exact ⟨body, rfl, hq.symm⟩
  | cons w ws ih =>
    cases body with
    | nil =>
      obtain ⟨hreads', -⟩ := no_reads_before_write hr hq hreads
      cases hreads'
    | cons b bs =>
      rw [List.cons_append, List.cons_append, List.cons.injEq] at hq
      obtain ⟨rfl, hq⟩ := hq
      obtain ⟨later, rfl, hrest⟩ := ih hq fun v hv => hreads v (List.mem_cons_of_mem _ hv)
      exact ⟨later, rfl, hrest⟩

theorem bytesOf_read {tw : Tw} (hr : isRead tw = true) : bytesOf tw = [] := by
  have hi := isReadOp_decodeTw hr
  unfold bytesOf
  split
  · next v hv => rw [hv] at hi; cases hi
  · next v hv => rw [hv] at hi; cases hi
  · rfl

theorem flatMap_bytesOf_reads {reads : List Tw} (h : ∀ tw ∈ reads, isRead tw = true) : reads.flatMap bytesOf = [] :=
  List.flatMap_eq_nil_iff.mpr fun tw htw => bytesOf_read (h tw htw)

theorem bytesOf_of_decodeTw {tw : Tw} {v : Word} :
    (decodeTw tw = .dataB v → bytesOf tw = [wordByte v 0]) ∧ (decodeTw tw = .dataW v → bytesOf tw = le32bytes v) := by
  constructor <;> (intro hv; rw [bytesOf, hv])

/-- A data write is a write, and in a session it appends its bytes, at most four. -/
theorem isDataWrite_cases {tw : Tw} (h : isDataWrite tw = true) :
    isRead tw = false ∧ (bytesOf tw).length ≤ 4 ∧
      ∀ s : State, s.phase = phaseAbsorb → s.afterWrite (decodeTw tw) = s.afterBytes (bytesOf tw) := by
  have hkind : ∃ v, decodeTw tw = .dataB v ∨ decodeTw tw = .dataW v := by
    unfold isDataWrite at h
    split at h
    · next v hv => exact ⟨v, .inl hv⟩
    · next v hv => exact ⟨v, .inr hv⟩
    · cases h
  obtain ⟨v, hv⟩ := hkind
  refine ⟨?write, ?bytes⟩
  case write =>
    rw [← Bool.not_eq_true]
    intro hr
    have hi := isReadOp_decodeTw hr
    obtain hv | hv := hv <;> (rw [hv] at hi; cases hi)
  case bytes =>
    obtain ⟨hdataB, hdataW⟩ := bytesOf_of_decodeTw (tw := tw) (v := v)
    obtain hv | hv := hv
    · rw [hdataB hv, hv]
      exact ⟨by simp, fun s hp => if_pos hp⟩
    · rw [hdataW hv, hv]
      exact ⟨by simp [le32bytes], fun s hp => if_pos hp⟩

/-- A machine in a session with m appended, ready for the transactions q. -/
structure InSession (alg : BitVec 1) (msg m : List Byte) (q : List Tw) (s : State) : Prop where
  ready : Ready q s
  absorbs : Absorbs alg msg m s

namespace InSession

variable {alg : BitVec 1} {msg m : List Byte} {q : List Tw} {tw : Tw} {s : State}

theorem read (h : InSession alg msg m (tw :: q) s) (hr : isRead tw = true) :
    ∃ t, Reaches s t ∧ InSession alg msg m q t := by
  obtain ⟨c, r, hreach, hready⟩ := h.ready.read hr
  exact ⟨_, hreach, hready, h.absorbs.onBus q c r⟩

/-- A data write, the reads performed over a block that it hands over, and the block. -/
theorem dataWrite (h : InSession alg msg m (tw :: q) s) (hw : isDataWrite tw = true) {rest : List Byte}
    (hmsg : msg = m ++ bytesOf tw ++ rest) :
    ∃ reads later t, q = reads ++ later ∧ (∀ tw ∈ reads, isRead tw = true) ∧ Reaches s t ∧
      InSession alg msg (m ++ bytesOf tw) later t := by
  obtain ⟨hr, hlen, hact⟩ := isDataWrite_cases hw
  obtain ⟨u, reads, later, c, r, rfl, hq, hreads, hinv, hreach, hready⟩ := h.ready.write hr
  have hu := h.absorbs.onBus q s.sched.tail none
  have happended : Absorbs alg msg (m ++ bytesOf tw) ((s.onBus q s.sched.tail none).afterWrite (decodeTw tw)) := by
    rw [hact _ hu.tail.absorbing]
    exact hu.afterBytes hmsg (.inl ⟨h.ready.idle, by omega⟩)
  have hfseq := hinv.fseq_eq_false happended.tail.absorbing
  exact ⟨reads, later, _, hq, hreads, hreach, hready, (happended.drained hfseq).onBus later c r⟩

/-- The whole body of a session, up to the first write that is no data write. -/
theorem body {m : List Byte} {s : State} (body tail : List Tw) (hr : isRead tw = false)
    (h : InSession alg msg m (body ++ tw :: tail) s)
    (hbody : ∀ w ∈ body, isDataWrite w = true ∨ isRead w = true) (hmsg : msg = m ++ body.flatMap bytesOf) :
    ∃ t, Reaches s t ∧ InSession alg msg msg (tw :: tail) t := by
  match body with
  | [] =>
    obtain rfl : msg = m := by simpa using hmsg
    exact ⟨s, .refl s, h⟩
  | w :: body' =>
    have hbody' : ∀ v ∈ body', isDataWrite v = true ∨ isRead v = true := fun v hv =>
      hbody v (List.mem_cons_of_mem _ hv)
    rw [List.flatMap_cons, ← List.append_assoc] at hmsg
    obtain hdata | hread := hbody w (List.mem_cons_self ..)
    · obtain ⟨reads, rest, t, hq, hreads, hreach, ht⟩ := h.dataWrite hdata hmsg
      obtain ⟨later, hsplit, rfl⟩ := reads_before_write hr hq hreads
      rw [hsplit, List.flatMap_append, flatMap_bytesOf_reads hreads, List.nil_append] at hmsg
      have hshorter : later.length ≤ body'.length := by
        rw [hsplit, List.length_append]
        omega
      obtain ⟨u, hreach', hu⟩ := InSession.body later tail hr ht
        (fun v hv => hbody' v (hsplit ▸ List.mem_append_right _ hv)) hmsg
      exact ⟨u, hreach.trans hreach', hu⟩
    · obtain ⟨t, hreach, ht⟩ := h.read hread
      rw [bytesOf_read hread, List.append_nil] at hmsg
      obtain ⟨u, hreach', hu⟩ := InSession.body body' tail hr ht hbody' hmsg
      exact ⟨u, hreach.trans hreach', hu⟩
termination_by body.length

end InSession

/-- The reads at the end leave no trace. -/
theorem Ready.reads {reads : List Tw} {s : State} (h : Ready reads s) (hreads : ∀ tw ∈ reads, isRead tw = true) :
    ∃ c r, Reaches s (s.onBus [] c r) ∧ Ready [] (s.onBus [] c r) := by
  induction reads generalizing s with
  | nil =>
    have hs : s.onBus [] s.sched s.resp = s := by
      rw [← h.bus]
      rfl
    exact ⟨s.sched, s.resp, by rw [hs]; exact ⟨.refl s, h⟩⟩
  | cons tw q ih =>
    obtain ⟨c, r, hreach, hready⟩ := h.read (hreads tw (List.mem_cons_self ..))
    obtain ⟨c', r', hreach', hready'⟩ := ih hready fun v hv => hreads v (List.mem_cons_of_mem _ hv)
    exact ⟨c', r', hreach.trans hreach', hready'⟩

/-! ## The session -/

/-- The word of the command that opens a session for the algorithm. -/
abbrev initWord (alg : BitVec 1) : Tw := asmWrite .cmd (if alg = 0 then 0x1 else 0x2)

theorem isRead_initWord (alg : BitVec 1) : isRead (initWord alg) = false := isRead_mkTw ..

theorem afterWrite_initWord (alg : BitVec 1) (s : State) :
    s.afterWrite (decodeTw (initWord alg)) = s.openSession alg (initialOf alg) := by
  obtain rfl | hne := eq_or_ne alg 0
  · rfl
  · rw [alg_eq_one hne]
    rfl

/-- INIT, after whatever the engine is doing: the session is open on the empty message. -/
theorem Inv.reaches_inSession {s : State} (h : Inv s) (hn : noReset s.sched = true) {alg : BitVec 1} {q : List Tw}
    (hq : s.hostq = initWord alg :: q) (msg : List Byte) :
    ∃ reads later t, q = reads ++ later ∧ (∀ tw ∈ reads, isRead tw = true) ∧ Reaches s t ∧
      InSession alg msg [] later t := by
  obtain ⟨_, rest, c, r, hq', hnone, hreach, hready⟩ := h.reaches_ready hn
  obtain ⟨-, rfl⟩ := no_reads_before_write (isRead_initWord alg) (hq.symm.trans hq') hnone
  obtain ⟨u, reads, later, c', r', hu, hsplit, hreads, -, hreach', hready'⟩ := hready.write (isRead_initWord alg)
  have hidle : u.eng = engIdle := by rw [hu]; exact hready.idle
  rw [afterWrite_initWord] at hreach' hready'
  exact ⟨reads, later, _, hsplit, hreads, hreach.trans hreach', hready',
    ((absorbs_openSession hidle alg msg).drained rfl).onBus later c' r'⟩

/-- FINISH and the reads after it, when the whole message is appended. -/
theorem InSession.finish {alg : BitVec 1} {msg : List Byte} {reads : List Tw} {s : State}
    (h : InSession alg msg msg (asmWrite .cmd 0x3 :: reads) s) (hreads : ∀ tw ∈ reads, isRead tw = true) :
    ∃ t, Reaches s t ∧ t.hostq = [] ∧ t.done = true ∧ t.alg = alg ∧ t.hs = hashState alg msg := by
  obtain ⟨u, performed, rest, c, r, rfl, rfl, -, -, hreach, hready⟩ := h.ready.write (isRead_mkTw ..)
  have hu := h.absorbs.onBus (performed ++ rest) s.sched.tail none
  have hclosed : (s.onBus (performed ++ rest) s.sched.tail none).afterWrite (decodeTw (asmWrite .cmd 0x3)) =
      (s.onBus (performed ++ rest) s.sched.tail none).closed := if_pos hu.tail.absorbing
  rw [hclosed] at hreach hready
  obtain ⟨hphase, halg, hhs⟩ := hu.closed_drained h.ready.idle rfl
  obtain ⟨c', r', hreach', hready'⟩ := hready.reads fun tw htw => hreads tw (List.mem_append_right _ htw)
  exact ⟨_, hreach.trans hreach', rfl, (done_iff _).mpr ⟨hphase, hready'.idle⟩, halg, hhs⟩

theorem digestBytes_eq (alg : BitVec 1) (m : List Byte) :
    digestBytes alg m = if alg = 0 then md5DigestBytes (hashState alg m) else sha1DigestBytes (hashState alg m) := by
  by_cases ha : alg = 0
  · rw [digestBytes, if_pos ha, if_pos ha, ha]
  · rw [digestBytes, if_neg ha, if_neg ha, alg_eq_one ha]

/-- Settles O60: INIT (`Inv.reaches_inSession`), the body (`InSession.body`), FINISH and the reads (`InSession.finish`). -/
theorem sessionComputesTheDigest : Obligations.SessionComputesTheDigest := by
  intro s alg body reads h hn hq hbody hreads
  obtain ⟨performed, rest, t, hsplit, hperformed, hreach, ht⟩ := h.reaches_inSession hn hq (body.flatMap bytesOf)
  obtain ⟨later, hlater, rfl⟩ := reads_before_write (isRead_mkTw ..) hsplit hperformed
  have hbytes : body.flatMap bytesOf = [] ++ later.flatMap bytesOf := by
    rw [hlater, List.flatMap_append, flatMap_bytesOf_reads hperformed]
  obtain ⟨u, hreach', hu⟩ := InSession.body later reads (isRead_mkTw ..) ht
    (fun w hw => hbody w (hlater ▸ List.mem_append_right _ hw)) hbytes
  obtain ⟨v, hreach'', hempty, hdone, halg, hhs⟩ := hu.finish hreads
  obtain ⟨n, hrun⟩ := (hreach.trans hreach').trans hreach''
  exact ⟨n, v, hrun, hempty, hdone, halg, hhs, by rw [hhs, digestBytes_eq]⟩

end Sys2Proof.Machine
end
